-- ==== Sys2Proof/Word.lean ====
section
/-! DEFINITION. The words of the WD33C93 SCSI block (00_scope.md R14): unsigned values of fixed width whose
arithmetic wraps. -/

namespace Sys2Proof

/-- `u8` of R14. -/
abbrev Byte := BitVec 8
/-- `u16` of R14. -/
abbrev Half := BitVec 16
/-- `u24` of R14: the transfer counter. -/
abbrev Count := BitVec 24
/-- `u32` of R14: host addresses, message words, the DMA counters. -/
abbrev Word := BitVec 32
/-- A chip register number, 0..31 (10_state.md R20, R22). -/
abbrev RegNum := BitVec 5

end Sys2Proof
end

