-- ==== Sys2Proof/Config.lean ====
section
/-! DEFINITION. What an implementation fixes (00_scope.md R5 to R9) as one parameter record, and the free values:
constants without a body, one for each kind of value the spec leaves open. -/

namespace Sys2Proof

/-- The board variants of R5. `none` is the pure-XT board. -/
inductive Variant where
  | cbmDmac | cbmSdmac | gvpS1 | gvpS2 | none
deriving DecidableEq, Repr, Inhabited

/-- The chip revisions of R9. -/
inductive ChipRev where
  | wd33c93 | wd33c93a | wd33c93b
deriving DecidableEq, Repr, Inhabited

/-- The named port operations of the board's I/O page (20_memory.md R72, R74; 44_dma_engines.md R280 to R293).
`wtc k`, `acr k`, `gaddr k` are byte `k` of the register, 3 the most significant. `gcntr` is the whole 16-bit
register (R289; 30_encoding.md R130: "with the whole register value"), `gcntrByte k` its byte `k` (log 18). `xtWindow` is
the window of a block that is out of scope (R4; log 20). -/
inductive Port where
  | sel | dat
  | cntr | istr | wtc (k : Fin 4) | acr (k : Fin 4) | dawr | stDma | spDma | cint | flush
  | gcntr | gcntrByte (k : Fin 2) | gaddr (k : Fin 4) | gbank | gStDma | gSpDma | sramOff | sramWin
  | xtWindow
deriving DecidableEq, Repr, Inhabited

/-- The implementation parameters of one controller (R5, R8, R9; 93_implementation_defined.md U18). Fixed for the
controller's lifetime: no operation writes a field. -/
structure Params where
  variant     : Variant
  legacyDmac  : Bool
  chipRev     : ChipRev
  qcap        : Nat
  scratchSize : Nat
  sramSize    : Nat
  addrMask    : Word
  cmdqCap     : Nat
  tTimeout    : Nat
  tReset      : Nat
  tInvalid    : Nat
  tSel1       : Nat
  tSel2       : Nat
  tRetryOut   : Nat
  tRetryIn    : Nat
  shutdown    : Word
  dmaModes    : List (BitVec 3)
  regmap      : List (Nat × Port)
deriving DecidableEq, Repr, Inhabited

/-- The directions a target's `analyze` can report: -1, 0, 1 (20_memory.md R90). -/
inductive Reported where
  | toHost | nothing | toDevice
deriving DecidableEq, Repr, Inhabited

/-- What `T.analyze()` reports (R90). `cmdLength` is at most 12 (42_chip_commands.md R207). -/
structure AnalyzeReply where
  cmdLength  : Fin 13
  direction  : Reported
  dataLength : Nat
deriving DecidableEq, Repr, Inhabited

/-- What `T.execute()` does (R90): it sets the status; for a device-to-host command `data` becomes the target's
data, all `T.dataLength` bytes of it. -/
structure ExecuteReply where
  status : Byte
  data   : List Byte
deriving DecidableEq, Repr, Inhabited

/-- Which agent moves when no turn is scheduled: the host, or the worker or the tick of the n-th controller. -/
inductive FreeTurn where
  | host | worker (n : Nat) | tick (n : Nat)
deriving DecidableEq, Repr, Inhabited

/-- FREE VALUE: a byte the spec leaves open (20_memory.md R80, R90; 93_implementation_defined.md U4, U10, U11), by
the number of the draw. -/
opaque Config.freeByte : Nat → Byte

/-- FREE VALUE: what `T.analyze()` reports when no reply is given as an input (U11). -/
opaque Config.freeAnalyze : Nat → AnalyzeReply

/-- FREE VALUE: what `T.execute()` does when no reply is given as an input (U11). -/
opaque Config.freeExecute : Nat → ExecuteReply

/-- FREE VALUE: the agent that moves when no turn is scheduled (R12 leaves the order open). -/
opaque Config.freeTurn : Nat → FreeTurn

end Sys2Proof
end

