-- ==== Sys2Proof/Machine/Codes.lean ====
section
/-! DEFINITION. Every number the spec decides, in one record `numbers` (00_scope.md R10): a corrected value changes one
place. Below it the names the rules use, the page maps and the default parameters. The spec marks nearly all of the
numbers as its own decisions [from general knowledge, not in source] (log 6). -/

namespace Sys2Proof.Machine

/-- The numbers of R10, by the file and rule that gives them. -/
structure Numbers where
  -- chip register numbers (30_encoding.md R120)
  (ownId control cdb1 targetLun commandPhase tcMsb tcMid tcLsb destinationId scsiStatus command data
   auxiliaryStatus : RegNum)
  -- the command byte: place of `SBT`, lowest bit of `op` (R113); command codes (R114)
  (sbtBit opLow : Nat)
  (opReset opAbort opNegateAck opSelAtn opSel opSelAtnXfer opSelXfer opTransInfo : BitVec 7)
  -- message words: the default of the sentinel (00_scope.md R8), the types (R110)
  (shutdown : Word)
  (mtypeCmd mtypeContIn mtypeContOut mtypeContInMsg : Half)
  -- status codes (R117); no rule posts the unexpected disconnect and the bad status (60_exceptions.md R335)
  (csrReset csrResetAf csrSelect csrSelXferDone csrXferDone csrInvalid csrUnexpDisc csrTimeout csrBadStatus
   csrUnexp csrDisc csrSrvReq : Byte)
  -- bus phases (R118)
  (phsDataOut phsDataIn phsCommand phsStatus phsMessOut phsMessIn : Byte)
  -- command-phase bytes (10_state.md R24); `cmdReceived` is the last that Select-and-Transfer resumes as a received
  -- command (42_chip_commands.md R208)
  (idle messageOut messageSent commandBytes cmdReceived dataSetup dataMoving statusByte statusAlt messageIn
   complete : Byte)
  -- masks of the DMA controllers' registers (10_state.md R41, R42, R46)
  (istrInts istrEInt istrIntP istrFeFlg cntrTcen cntrInten cntrDdir : Byte)
  (gcntrGPend gcntrGInten gcntrGDirw : Half)
  -- masks of the chip's registers (R121, R122, R124), the lowest bit of CONTROL's DMA mode (R122), the write masks of
  -- OWN_ID by chip revision (40_register_access.md R147)
  (auxInt auxBsy auxDbr controlEdi ownIdEaf ownIdMask93 ownIdMask93a ownIdMask93b : Byte)
  (dmaModeLow : Nat)
deriving DecidableEq, Repr

/-- Their values. -/
def numbers : Numbers :=
  { ownId := 0x00, control := 0x01, cdb1 := 0x03, targetLun := 0x0F, commandPhase := 0x10, tcMsb := 0x12,
    tcMid := 0x13, tcLsb := 0x14, destinationId := 0x15, scsiStatus := 0x17, command := 0x18, data := 0x19,
    auxiliaryStatus := 0x1F, sbtBit := 7, opLow := 0, opReset := 0x00, opAbort := 0x01, opNegateAck := 0x03,
    opSelAtn := 0x06, opSel := 0x07, opSelAtnXfer := 0x08, opSelXfer := 0x09, opTransInfo := 0x20,
    shutdown := 0xFFFFFFFF, mtypeCmd := 0, mtypeContIn := 1, mtypeContOut := 2, mtypeContInMsg := 3,
    csrReset := 0x00, csrResetAf := 0x01, csrSelect := 0x11, csrSelXferDone := 0x16, csrXferDone := 0x18,
    csrInvalid := 0x40, csrUnexpDisc := 0x41, csrTimeout := 0x42, csrBadStatus := 0x45, csrUnexp := 0x48,
    csrDisc := 0x85, csrSrvReq := 0x88, phsDataOut := 0, phsDataIn := 1, phsCommand := 2, phsStatus := 3,
    phsMessOut := 6, phsMessIn := 7, idle := 0x00, messageOut := 0x10, messageSent := 0x20, commandBytes := 0x30,
    cmdReceived := 0x41, dataSetup := 0x44, dataMoving := 0x45, statusByte := 0x46, statusAlt := 0x47,
    messageIn := 0x50, complete := 0x60, istrInts := 0x40, istrEInt := 0x20, istrIntP := 0x10, istrFeFlg := 0x01,
    cntrTcen := 0x80, cntrInten := 0x10, cntrDdir := 0x08, gcntrGPend := 0x0002, gcntrGInten := 0x0008,
    gcntrGDirw := 0x0010, auxInt := 0x80, auxBsy := 0x20, auxDbr := 0x01, controlEdi := 0x08, dmaModeLow := 5,
    ownIdEaf := 0x08, ownIdMask93 := 0xD7, ownIdMask93a := 0xDF, ownIdMask93b := 0xFF }

/-! ### The names the rules use -/

def OWN_ID : RegNum := numbers.ownId
def CONTROL : RegNum := numbers.control
def CDB_1 : RegNum := numbers.cdb1
def TARGET_LUN : RegNum := numbers.targetLun
def COMMAND_PHASE : RegNum := numbers.commandPhase
def TC_MSB : RegNum := numbers.tcMsb
def TC_MID : RegNum := numbers.tcMid
def TC_LSB : RegNum := numbers.tcLsb
def DESTINATION_ID : RegNum := numbers.destinationId
def SCSI_STATUS : RegNum := numbers.scsiStatus
def COMMAND : RegNum := numbers.command
def DATA : RegNum := numbers.data
def AUXILIARY_STATUS : RegNum := numbers.auxiliaryStatus

def SBT_BIT : Nat := numbers.sbtBit
def OP_LOW : Nat := numbers.opLow
def OP_RESET : BitVec 7 := numbers.opReset
def OP_ABORT : BitVec 7 := numbers.opAbort
def OP_NEGATE_ACK : BitVec 7 := numbers.opNegateAck
def OP_SEL_ATN : BitVec 7 := numbers.opSelAtn
def OP_SEL : BitVec 7 := numbers.opSel
def OP_SEL_ATN_XFER : BitVec 7 := numbers.opSelAtnXfer
def OP_SEL_XFER : BitVec 7 := numbers.opSelXfer
def OP_TRANS_INFO : BitVec 7 := numbers.opTransInfo

/-- The default of the parameter `SHUTDOWN` (R8). -/
def SHUTDOWN : Word := numbers.shutdown
def MTYPE_CMD : Half := numbers.mtypeCmd
def MTYPE_CONT_IN : Half := numbers.mtypeContIn
def MTYPE_CONT_OUT : Half := numbers.mtypeContOut
def MTYPE_CONT_IN_MSG : Half := numbers.mtypeContInMsg

def CSR_RESET : Byte := numbers.csrReset
def CSR_RESET_AF : Byte := numbers.csrResetAf
def CSR_SELECT : Byte := numbers.csrSelect
def CSR_SEL_XFER_DONE : Byte := numbers.csrSelXferDone
def CSR_XFER_DONE : Byte := numbers.csrXferDone
def CSR_INVALID : Byte := numbers.csrInvalid
def CSR_UNEXP_DISC : Byte := numbers.csrUnexpDisc
def CSR_TIMEOUT : Byte := numbers.csrTimeout
def CSR_BAD_STATUS : Byte := numbers.csrBadStatus
def CSR_UNEXP : Byte := numbers.csrUnexp
def CSR_DISC : Byte := numbers.csrDisc
def CSR_SRV_REQ : Byte := numbers.csrSrvReq

def PHS_DATA_OUT : Byte := numbers.phsDataOut
def PHS_DATA_IN : Byte := numbers.phsDataIn
def PHS_COMMAND : Byte := numbers.phsCommand
def PHS_STATUS : Byte := numbers.phsStatus
def PHS_MESS_OUT : Byte := numbers.phsMessOut
def PHS_MESS_IN : Byte := numbers.phsMessIn

def PHASE_IDLE : Byte := numbers.idle
def PHASE_MESSAGE_OUT : Byte := numbers.messageOut
def PHASE_MESSAGE_SENT : Byte := numbers.messageSent
def PHASE_COMMAND : Byte := numbers.commandBytes
def PHASE_CMD_RECEIVED : Byte := numbers.cmdReceived
def PHASE_DATA_SETUP : Byte := numbers.dataSetup
def PHASE_DATA : Byte := numbers.dataMoving
def PHASE_STATUS : Byte := numbers.statusByte
def PHASE_STATUS_ALT : Byte := numbers.statusAlt
def PHASE_MESSAGE_IN : Byte := numbers.messageIn
def PHASE_COMPLETE : Byte := numbers.complete

def ISTR_INTS : Byte := numbers.istrInts
def ISTR_E_INT : Byte := numbers.istrEInt
def ISTR_INT_P : Byte := numbers.istrIntP
def ISTR_FE_FLG : Byte := numbers.istrFeFlg
def CNTR_TCEN : Byte := numbers.cntrTcen
def CNTR_INTEN : Byte := numbers.cntrInten
def CNTR_DDIR : Byte := numbers.cntrDdir
def GCNTR_G_PEND : Half := numbers.gcntrGPend
def GCNTR_G_INTEN : Half := numbers.gcntrGInten
def GCNTR_G_DIRW : Half := numbers.gcntrGDirw

def AUX_INT : Byte := numbers.auxInt
def AUX_BSY : Byte := numbers.auxBsy
def AUX_DBR : Byte := numbers.auxDbr
def CONTROL_EDI : Byte := numbers.controlEdi
def DMA_MODE_LOW : Nat := numbers.dmaModeLow
def OWN_ID_EAF : Byte := numbers.ownIdEaf
def OWN_ID_MASK_93 : Byte := numbers.ownIdMask93
def OWN_ID_MASK_93A : Byte := numbers.ownIdMask93a
def OWN_ID_MASK_93B : Byte := numbers.ownIdMask93b

/-- The codes of R114; every other code is unrecognised (R115). -/
def namedOps : List (BitVec 7) :=
  [OP_RESET, OP_ABORT, OP_NEGATE_ACK, OP_SEL_ATN, OP_SEL, OP_SEL_ATN_XFER, OP_SEL_XFER, OP_TRANS_INFO]

/-- Some bit of `mask` is set in `v`. -/
def hasBit {w : Nat} (v mask : BitVec w) : Bool := v &&& mask != 0

/-- `v` with the bits of `mask` set. -/
def setBits {w : Nat} (v mask : BitVec w) : BitVec w := v ||| mask

/-- `v` with the bits of `mask` cleared. -/
def clearBits {w : Nat} (v mask : BitVec w) : BitVec w := v &&& ~~~mask

/-- The write mask of OWN_ID (40_register_access.md R147). -/
def ownIdMask : ChipRev → Byte
  | .wd33c93  => OWN_ID_MASK_93
  | .wd33c93a => OWN_ID_MASK_93A
  | .wd33c93b => OWN_ID_MASK_93B

/-- The DMA modes each variant's engine accepts (44_dma_engines.md R260). -/
def defaultDmaModes : Variant → List (BitVec 3)
  | .cbmDmac | .cbmSdmac | .gvpS2 => [4, 1]
  | .gvpS1 => [2]
  | .none => []

/-- The chip-access mirror of the Commodore boards (20_memory.md R72). -/
def cbmMirror : List (Nat × Port) := [(0x90, .sel), (0x91, .sel), (0x92, .dat), (0x93, .dat)]

/-- The XT window of the Commodore boards (R74), out of scope. -/
def cbmXtWindow : List (Nat × Port) := (List.range 8).map fun i => (0xA0 + i, .xtWindow)

/-- The suggested filling of `regmap` (R74); multi-byte registers most significant byte lowest (R76), `GCNTR` too, whose
low byte R74 gives no offset (log 18). What R74 leaves OPEN is not named (R75): the SuperDMAC's own registers and the
Series I buffer ports (log 35), GVP offset 0x3E (log 20). R74 has no row for the pure-XT board: its page names nothing,
DESIGN CHOICE (log 36). -/
def defaultRegmap : Variant → List (Nat × Port)
  | .cbmDmac =>
      [(0x41, .istr), (0x43, .cntr),
       (0x80, .wtc 3), (0x81, .wtc 2), (0x82, .wtc 1), (0x83, .wtc 0),
       (0x84, .acr 3), (0x85, .acr 2), (0x86, .acr 1), (0x87, .acr 0),
       (0x8F, .dawr), (0xE0, .stDma), (0xE2, .spDma), (0xE4, .cint), (0xE8, .flush)]
      ++ cbmMirror ++ cbmXtWindow
  | .cbmSdmac => cbmMirror ++ cbmXtWindow
  | .gvpS1 | .gvpS2 =>
      [(0x40, .gcntrByte 1), (0x41, .gcntrByte 0),
       (0x60, .sel), (0x61, .sel), (0x62, .dat), (0x63, .dat), (0x68, .gbank),
       (0x70, .gaddr 3), (0x71, .gaddr 2), (0x72, .gaddr 1), (0x73, .gaddr 0),
       (0x76, .gStDma), (0x7E, .gSpDma)]
  | .none => []

/-- The defaults of R8 for a board of variant `v`. `cmdqCap` is OPEN in R8, at least 1; 4 is the model's choice
(log 7). -/
def defaultParams (v : Variant) : Params :=
  { variant := v, legacyDmac := false, chipRev := .wd33c93a, qcap := 2, scratchSize := 32,
    sramSize := 16384, addrMask := 0x00FFFFFF, cmdqCap := 4, tTimeout := 1000, tReset := 50,
    tInvalid := 10, tSel1 := 2, tSel2 := 4, tRetryOut := 10, tRetryIn := 1, shutdown := SHUTDOWN,
    dmaModes := defaultDmaModes v, regmap := defaultRegmap v }

end Sys2Proof.Machine
end

