-- ==== Sys2Proof/Syntax.lean ====
section
/-! DEFINITION. The instructions: one constructor for each row of spec/opcode_table.json. -/

namespace Sys2Proof

/-- Format M rows are the dispatch messages (30_encoding.md R110, R111), format C rows the chip commands (R113 to
R115). Every constructor carries all the bits its row leaves free: `tid` and `cmd` of a message word, `sbt` (bit 7)
of a command byte. -/
inductive Instr where
  /-- R311 -/
  | msgShutdown
  /-- R306 -/
  | msgCmd (tid cmd : Byte)
  /-- R307 -/
  | msgContIn (tid cmd : Byte)
  /-- R308 -/
  | msgContOut (tid cmd : Byte)
  /-- R309 -/
  | msgContInMsg (tid cmd : Byte)
  /-- R310 -/
  | msgUnknown (tid : Byte) (mtype : Half) (cmd : Byte)
  /-- R191 -/
  | reset (sbt : Bool)
  /-- R193 -/
  | abort (sbt : Bool)
  /-- R225 -/
  | negateAck (sbt : Bool)
  /-- R197 -/
  | selAtn (sbt : Bool)
  /-- R198 -/
  | sel (sbt : Bool)
  /-- R205 -/
  | selAtnXfer (sbt : Bool)
  /-- R206 -/
  | selXfer (sbt : Bool)
  /-- R220 -/
  | transInfo (sbt : Bool)
  /-- R228 -/
  | invalid (sbt : Bool) (op : BitVec 7)
deriving DecidableEq, Repr

end Sys2Proof
end

