-- ==== Sys2Proof/WellFormed.lean ====
section
/-! DEFINITION. Which terms of `Instr` an encoding stands for: the two default rows of the table take only the words
no earlier row matches (opcode_table.json, notes of MSG_UNKNOWN and INVALID). -/

namespace Sys2Proof

/-- The sentinel is no word the block produces: its type is above 3 (92_eei_decisions.md D29). -/
def sentinelLegal (sentinel : Word) : Bool := decide (3 < (sentinel.extractLsb' 8 16).toNat)

/-- A word of type `mtype` above 3 that is not the sentinel (30_encoding.md R111). -/
def unknownMessage (sentinel : Word) (tid : Byte) (mtype : Half) (cmd : Byte) : Bool :=
  decide (3 < mtype.toNat) && decide ((tid ++ mtype ++ cmd : Word) ≠ sentinel)

/-- A code that is none of R114's (R115). -/
def unnamedOp (op : BitVec 7) : Bool := !Machine.namedOps.contains op

/-- `sentinel` is the board's parameter `SHUTDOWN` (00_scope.md R8), by default `Machine.SHUTDOWN`. -/
def Instr.wf (sentinel : Word) : Instr → Bool
  | .msgUnknown tid mtype cmd => unknownMessage sentinel tid mtype cmd
  | .invalid _ op => unnamedOp op
  | .msgShutdown => true
  | .msgCmd _ _ => true
  | .msgContIn _ _ => true
  | .msgContOut _ _ => true
  | .msgContInMsg _ _ => true
  | .reset _ => true
  | .abort _ => true
  | .negateAck _ => true
  | .selAtn _ => true
  | .sel _ => true
  | .selAtnXfer _ => true
  | .selXfer _ => true
  | .transInfo _ => true

end Sys2Proof
end

