-- ==== Sys2Proof/Decode.lean ====
section
/-! DEFINITION. The decoder of the two instruction formats (30_encoding.md R110 to R115), then the encoder. Both take the
board's sentinel word (00_scope.md R8, `SHUTDOWN`); the opcode table's numbering takes its default. -/

namespace Sys2Proof

open Machine

/-- Format M: the sentinel is tested first, then bits 23:8 (R111). Total: any other type is MSG_UNKNOWN. -/
def decodeMessage (sentinel w : Word) : Instr :=
  let tid := w.extractLsb' 24 8
  let mtype := w.extractLsb' 8 16
  let cmd := w.extractLsb' 0 8
  if w = sentinel then .msgShutdown
  else if mtype = MTYPE_CMD then .msgCmd tid cmd
  else if mtype = MTYPE_CONT_IN then .msgContIn tid cmd
  else if mtype = MTYPE_CONT_OUT then .msgContOut tid cmd
  else if mtype = MTYPE_CONT_IN_MSG then .msgContInMsg tid cmd
  else .msgUnknown tid mtype cmd

/-- Format C: `op` selects the row, `SBT` stands beside it (R113, R114). Total: any other code is INVALID (R115). -/
def decodeCommand (b : Byte) : Instr :=
  let sbt := b.getLsbD SBT_BIT
  let op := b.extractLsb' OP_LOW 7
  if op = OP_RESET then .reset sbt
  else if op = OP_ABORT then .abort sbt
  else if op = OP_NEGATE_ACK then .negateAck sbt
  else if op = OP_SEL_ATN then .selAtn sbt
  else if op = OP_SEL then .sel sbt
  else if op = OP_SEL_ATN_XFER then .selAtnXfer sbt
  else if op = OP_SEL_XFER then .selXfer sbt
  else if op = OP_TRANS_INFO then .transInfo sbt
  else .invalid sbt op

/-- An instruction's bits, in the format they have: a message word or a command byte. -/
inductive Code where
  | message (w : Word)
  | command (b : Byte)
deriving DecidableEq, Repr

def decode (sentinel : Word) : Code → Instr
  | .message w => decodeMessage sentinel w
  | .command b => decodeCommand b

/-- Why a string of bits is no instruction. -/
inductive Reject where
  /-- neither 8 nor 32 bits hold a string of this length -/
  | noSuchFormat
  /-- the value has bits above the format's width -/
  | bitsAboveFormat
deriving DecidableEq, Repr

/-- `nbits` bits of value `w`, read as the shortest format that holds them (R110: 32 bits; R113: 8 bits). -/
def decodeBits (nbits w : Nat) : Except Reject Instr :=
  if nbits = 0 ∨ 32 < nbits then .error .noSuchFormat
  else if nbits ≤ 8 then
    if w < 2 ^ 8 then .ok (decode SHUTDOWN (.command (BitVec.ofNat 8 w))) else .error .bitsAboveFormat
  else
    if w < 2 ^ 32 then .ok (decode SHUTDOWN (.message (BitVec.ofNat 32 w))) else .error .bitsAboveFormat

/-- The decoder over the numbering of spec/opcode_table.json. -/
def decodeTableWord (nbits w : Nat) : Option Instr :=
  match decodeBits nbits w with
  | .ok i => some i
  | .error _ => none

/-! ### The encoder -/

/-- The message word (R110, 45_dispatch.md R300: `tid ++ mtype ++ cmd`). -/
def messageWord (tid : Byte) (mtype : Half) (cmd : Byte) : Word := tid ++ mtype ++ cmd

/-- The command byte (R113). -/
def commandByte (sbt : Bool) (op : BitVec 7) : Byte :=
  ((BitVec.ofBool sbt).zeroExtend 8 <<< SBT_BIT) ||| (op.zeroExtend 8 <<< OP_LOW)

def encode (sentinel : Word) : Instr → Code
  | .msgShutdown => .message sentinel
  | .msgCmd tid cmd => .message (messageWord tid MTYPE_CMD cmd)
  | .msgContIn tid cmd => .message (messageWord tid MTYPE_CONT_IN cmd)
  | .msgContOut tid cmd => .message (messageWord tid MTYPE_CONT_OUT cmd)
  | .msgContInMsg tid cmd => .message (messageWord tid MTYPE_CONT_IN_MSG cmd)
  | .msgUnknown tid mtype cmd => .message (messageWord tid mtype cmd)
  | .reset sbt => .command (commandByte sbt OP_RESET)
  | .abort sbt => .command (commandByte sbt OP_ABORT)
  | .negateAck sbt => .command (commandByte sbt OP_NEGATE_ACK)
  | .selAtn sbt => .command (commandByte sbt OP_SEL_ATN)
  | .sel sbt => .command (commandByte sbt OP_SEL)
  | .selAtnXfer sbt => .command (commandByte sbt OP_SEL_ATN_XFER)
  | .selXfer sbt => .command (commandByte sbt OP_SEL_XFER)
  | .transInfo sbt => .command (commandByte sbt OP_TRANS_INFO)
  | .invalid sbt op => .command (commandByte sbt op)

/-- The encoding as (number of bits, value), the form `decodeTableWord` reads. -/
def encodeTableWord (i : Instr) : Nat × Nat :=
  match encode SHUTDOWN i with
  | .message w => (32, w.toNat)
  | .command b => (8, b.toNat)

end Sys2Proof
end

