-- ==== Sys2Proof/Machine/State.lean ====
section
/-! DEFINITION. The machine's state as plain data (10_state.md), and the state after reset. -/

namespace Sys2Proof.Machine

/-- Bytes by address, in one canonical form: addresses strictly rising, no address twice (`Memory.wf` in
Machine/Ops.lean). An unlisted address holds no value the model fixes: a read of it is a free value (logs 12, 13). -/
abbrev Memory := List Host.Cell

/-- `T.direction` (10_state.md R50): the reported values -1, 0, 1 and the pseudo-value 2. -/
inductive Direction where
  | toHost | nothing | toDevice | command
deriving DecidableEq, Repr

/-- The integer the spec writes (R50, R14). -/
def Direction.toInt : Direction → Int
  | .toHost => -1
  | .nothing => 0
  | .toDevice => 1
  | .command => 2

/-- `dataAvail` (R25). -/
inductive DataAvail where
  /-- 0: no transfer open at the DATA register -/
  | closed
  /-- 1: a PIO transfer is open -/
  | pio
  /-- -1: a transfer is open and the DMA engine is to drive it -/
  | dma
deriving DecidableEq, Repr

/-- `dmaActive` (R44): 0 stopped, 1 started by the host, -1 only ever assigned by the XT block. -/
inductive DmaActive where
  | stopped | started | driven
deriving DecidableEq, Repr

/-- One slot of the delay queue (R29): `qStatus[i]` and `qCount[i]`. Free when `count` is 0. -/
structure Slot where
  status : Byte
  count  : Nat
deriving DecidableEq, Repr

/-- One attached SCSI target (R50, 20_memory.md R90). `data` is the target's data by offset. The last three fields
are the model's own: answers of the target layer given as inputs, oldest first; where a list is empty the answer is a
free value (log 8). -/
structure Target where
  direction      : Direction
  dataLength     : Nat
  offset         : Nat
  status         : Byte
  cmd            : Vector Byte 16
  cmdLength      : Nat
  identify       : Byte
  data           : Memory
  analyzeReplies : List AnalyzeReply
  executeReplies : List ExecuteReply
  messageReplies : List Byte
deriving DecidableEq, Repr

/-- A target nothing has talked to (log 33). -/
def Target.fresh : Target :=
  { direction := .nothing, dataLength := 0, offset := 0, status := 0, cmd := Vector.replicate 16 0,
    cmdLength := 0, identify := 0, data := [], analyzeReplies := [], executeReplies := [],
    messageReplies := [] }

/-- One controller instance: the spec's records ChipState (R20 to R30) and ControllerInstance (R40 to R49), and its
targets (00_scope.md R7). `slot` and `down` are the model's own (logs 31, 23). -/
structure Controller where
  slot        : Nat
  cfg         : Params
  -- chip (R20 to R30)
  regs        : Vector Byte 32
  sasr        : RegNum
  selected    : Bool
  busy        : Bool
  dataAvail   : DataAvail
  auxInt      : Bool
  scratch     : Memory
  scratchOff  : Nat
  queue       : List Slot
  qIndex      : Nat
  curTarget   : Option (Fin 8)
  targets     : Vector (Option Target) 8
  -- Commodore DMA controller (R40)
  istr        : Byte
  cntr        : Byte
  wtc         : Word
  acr         : Word
  dawr        : Byte
  -- GVP DMA controller (R43)
  gcntr       : Half
  gaddr       : Word
  gbank       : Byte
  sram        : Memory
  sramOff     : Nat
  -- both (R44), and the XT block's request (R45)
  dmaActive   : DmaActive
  xtIrq       : Bool
  -- dispatch (R47) and flags (R49)
  cmdq        : List Word
  workerAlive : Bool
  enabled     : Bool
  configured  : Bool
  down        : Bool
deriving DecidableEq, Repr

/-- Construction (45_dispatch.md R320): the "at construction" column of R55. `enabled` and `configured` belong to
the autoconfiguration (R49, log 21). -/
def Controller.construct (slot : Nat) (cfg : Params) (targets : Vector (Option Target) 8) : Controller :=
  { slot := slot, cfg := cfg, regs := Vector.replicate 32 0, sasr := 0, selected := false, busy := false,
    dataAvail := .closed, auxInt := false, scratch := [], scratchOff := 0,
    queue := List.replicate cfg.qcap { status := 0, count := 0 }, qIndex := 0, curTarget := none,
    targets := targets, istr := 0, cntr := 0, wtc := 0, acr := 0, dawr := 0, gcntr := 0, gaddr := 0,
    gbank := 0, sram := [], sramOff := 0, dmaActive := .stopped, xtIrq := false, cmdq := [],
    workerAlive := true, enabled := true, configured := true, down := false }

/-- A host access: a read, or a write of a value, low bits first (20_memory.md R73). -/
inductive Access where
  | read
  | write (v : Word)
deriving DecidableEq, Repr

/-- Widths of a page access (R73). -/
inductive Width where
  | byte | word | long
deriving DecidableEq, Repr

/-- What the host can be about to do. `port` is a named port operation (R74: "the normative interface"); `page` an
access by offset and width, `joined` when it continues a wider access, so that its data goes below what was already
read; `teardown` enqueues the sentinel and `awaitExit` waits for the worker (45_dispatch.md R322). -/
inductive HostOp where
  | port (slot : Nat) (p : Port) (a : Access)
  | page (slot : Nat) (off : Nat) (w : Width) (a : Access) (joined : Bool)
  | teardown (slot : Nat)
  | awaitExit (slot : Nat)
deriving DecidableEq, Repr

/-- An answer of the target layer (R90): what an `analyze` reports, what an `execute` does, a message-in byte. -/
inductive TargetReply where
  | analyze (r : AnalyzeReply)
  | execute (r : ExecuteReply)
  | message (b : Byte)
deriving DecidableEq, Repr

/-- What can happen to the machine from outside the four agents (INVENTORY.md, Host interface). -/
inductive External where
  /-- board or system reset (R321) -/
  | boardReset (slot : Nat)
  /-- board-init of one more board (R320), with targets attached at the SCSI IDs of `ids` -/
  | construct (slot : Nat) (cfg : Params) (ids : List (Fin 8))
  /-- the autoconfiguration sets the flags of R49 -/
  | autoconfig (slot : Nat) (enabled configured : Bool)
  /-- the XT block changes its request (R45) -/
  | xtRequest (slot : Nat) (level : Bool)
  /-- the XT block changes the DMA-active flag (R44) -/
  | xtDma (slot : Nat) (v : DmaActive)
  /-- another master writes host memory (20_memory.md R80) -/
  | memoryWrite (a : Word) (v : Byte)
  /-- the target layer settles an answer the target at SCSI ID `id` will give (20_memory.md R90, log 8) -/
  | targetReply (slot : Nat) (id : Fin 8) (r : TargetReply)
deriving DecidableEq, Repr

/-- Whose turn it is (00_scope.md R11, R12). -/
inductive Turn where
  | host
  | worker (slot : Nat)
  | tick (slot : Nat)
  | external (e : External)
deriving DecidableEq, Repr

/-- A range of host addresses that something decodes (R80). -/
structure Region where
  base : Nat
  size : Nat
deriving DecidableEq, Repr

/-- The whole machine. `ctl` is the controller that acts, `others` all the others; `irqLine` (R48), host memory and
the rest are shared. `hostHeld` names the controller whose full command queue holds the host at its oldest access
(45_dispatch.md R302, log 41). `memMap`, `turns`, `hostOps`, `hostData` and `draws` are the model's own (logs 1, 12, 14,
15). -/
structure State where
  ctl      : Controller
  others   : List Controller
  irqLine  : Bool
  mem      : Memory
  memMap   : List Region
  turns    : List Turn
  hostOps  : List HostOp
  hostHeld : Option Nat
  hostData : Word
  draws    : Nat
deriving DecidableEq, Repr

/-- No rule of the spec has a fault outcome: "every step is total on the state" (60_exceptions.md R333). No
constructor, so nothing raises one. -/
inductive Fault where
deriving DecidableEq, Repr

/-- Why a step has no meaning. -/
inductive Refusal where
  /-- raised by an arm of `exec` for an instruction not reached yet (none); safe: the run stops -/
  | notModelled (mnemonic : String)
  /-- raised by an access to the XT window of a Commodore board, whose block is out of scope (R4); safe -/
  | xtWindow
deriving DecidableEq, Repr

/-- The three outcomes of the machine's operations. -/
abbrev Outcome := Host.Outcome State Fault Refusal

/-- Fresh targets at the SCSI IDs of `ids`, nothing at the others (00_scope.md R7). -/
def attach (ids : List (Fin 8)) : Vector (Option Target) 8 :=
  ids.foldl (fun v i => v.set i.val (some Target.fresh)) (Vector.replicate 8 none)

/-- The machine after reset: the common start state S0 of 95_test_vectors.md (one board, target 3 present and every other
ID absent), the board a Commodore DMAC (log 4), every field at R55's "at construction" value. -/
def State.reset : State :=
  { ctl := Controller.construct 0 (defaultParams .cbmDmac) (attach [3]), others := [], irqLine := false,
    mem := [], memMap := [{ base := 0, size := 2 ^ 32 }], turns := [], hostOps := [], hostHeld := none, hostData := 0,
    draws := 0 }

end Sys2Proof.Machine
end

