-- ==== Sys2Proof/Machine/Operands.lean ====
section
/-! DEFINITION. What the chip commands and callbacks take as operands: the register file (10_state.md R20, R22), the
transfer counter (R23), the command phase (R24), the current target (R30) and the target lookup (42_chip_commands.md
R195). Every read and write of a register goes through `reg` and `setReg`. -/

namespace Sys2Proof.Machine

/-- `x[i]` (00_scope.md R15). -/
def Controller.reg (c : Controller) (i : RegNum) : Byte := c.regs[i.toNat]'(i.isLt)

/-- `x[i] <- v` (R15). -/
def Controller.setReg (c : Controller) (i : RegNum) (v : Byte) : Controller :=
  { c with regs := c.regs.set i.toNat v i.isLt }

/-- `TC` (R23): the most significant byte stands at the lowest index. -/
def Controller.tc (c : Controller) : Count := c.reg TC_MSB ++ c.reg TC_MID ++ c.reg TC_LSB

/-- `TC <- v` (R23). -/
def Controller.setTc (c : Controller) (v : Count) : Controller :=
  ((c.setReg TC_MSB (v.extractLsb' 16 8)).setReg TC_MID (v.extractLsb' 8 8)).setReg TC_LSB (v.extractLsb' 0 8)

/-- `phase` (R24). -/
def Controller.phase (c : Controller) : Byte := c.reg COMMAND_PHASE

/-- `phase <- v` (R24). -/
def Controller.setPhase (c : Controller) (v : Byte) : Controller := c.setReg COMMAND_PHASE v

/-- `regs[0x15][2:0]` (30_encoding.md R123). -/
def Controller.destId (c : Controller) : Fin 8 := ((c.reg DESTINATION_ID).extractLsb' 0 3).toFin

/-- `targets[i]` (00_scope.md R7). -/
def Controller.targetAt (c : Controller) (i : Fin 8) : Option Target := c.targets[i.val]

/-- `T = targets[curTarget]`, none when there is no current target or nothing is attached there (R30). -/
def Controller.target (c : Controller) : Option Target := c.curTarget.bind c.targetAt

/-- The current target becomes `t`. -/
def Controller.setTarget (c : Controller) (t : Target) : Controller :=
  match c.curTarget with
  | none => c
  | some i => { c with targets := c.targets.set i.val (some t) }

/-- Target lookup by DESTINATION_ID (R195, R196): it fails for ID 7 and where nothing is attached. -/
def Controller.lookup (c : Controller) : Option (Fin 8) :=
  if c.destId = 7 then none
  else if (c.targetAt c.destId).isSome then some c.destId
  else none

/-- The acting controller changes by `f`, the rest of the machine stands. -/
def State.upd (s : State) (f : Controller → Controller) : State := { s with ctl := f s.ctl }

/-- The acting controller's current target. -/
def State.target (s : State) : Option Target := s.ctl.target

/-- Every controller of the machine, the acting one first. -/
def State.controllers (s : State) : List Controller := s.ctl :: s.others

/-- The controller numbered `slot` becomes the acting one; none where there is no such controller. -/
def State.focus (s : State) (slot : Nat) : Option State :=
  if s.ctl.slot = slot then some s
  else
    match s.others.find? (fun c => c.slot == slot) with
    | none => none
    | some c => some { s with ctl := c, others := s.ctl :: s.others.eraseP (fun c => c.slot == slot) }

/-- `T.direction < 0`: device-to-host (00_scope.md R17). -/
def Direction.isIn (d : Direction) : Bool := decide (d.toInt < 0)

/-- `T.direction > 0`: host-to-device, the pseudo-values 1 and 2 included (44_dma_engines.md R263). -/
def Direction.isOut (d : Direction) : Bool := decide (0 < d.toInt)

/-- A reported direction as a value of `T.direction` (20_memory.md R90). -/
def reportedDirection : Reported → Direction
  | .toHost => .toHost
  | .nothing => .nothing
  | .toDevice => .toDevice

end Sys2Proof.Machine
end

