-- ==== Sys2Proof/Machine/Flags.lean ====
section
/-! DEFINITION. Every flag the spec computes: the auxiliary status byte (40_register_access.md R150), the DMA
predicates (44_dma_engines.md R260 to R262), the latches and predicates of the interrupt aggregator
(60_exceptions.md R351 to R354). -/

namespace Sys2Proof.Machine

/-- The auxiliary status byte (R150): INT, BSY and DBR; every other bit 0. -/
def Controller.auxStatus (c : Controller) : Byte :=
  (if c.auxInt then AUX_INT else 0)
    ||| (if c.busy || c.dataAvail == .dma then AUX_BSY else 0)
    ||| (if c.dataAvail != .closed then AUX_DBR else 0)

/-- `CONTROL[7:5]`, the chip's DMA mode (30_encoding.md R122). -/
def Controller.dmaMode (c : Controller) : BitVec 3 := (c.reg CONTROL).extractLsb' DMA_MODE_LOW 3

/-- `CanDma()` (R260). A nonzero mode outside the variant's set is only logged. -/
def Controller.canDma (c : Controller) : Bool := c.cfg.dmaModes.contains c.dmaMode

/-- `DmaStarted` (R261). -/
def Controller.dmaStarted (c : Controller) : Bool := c.dmaActive != .stopped

/-- `CONTROL[3] = 1`: the "ending disconnect interrupt" bit (R122). -/
def Controller.edi (c : Controller) : Bool := hasBit (c.reg CONTROL) CONTROL_EDI

/-- `DirMismatch(T)` (R262) for a target whose direction is `d`. -/
def Controller.dirMismatch (c : Controller) (d : Direction) : Bool :=
  match c.cfg.variant with
  | .cbmDmac | .cbmSdmac => hasBit c.cntr CNTR_DDIR != d.isOut
  | .gvpS2 => hasBit c.gcntr GCNTR_G_DIRW != d.isOut
  | .gvpS1 | .none => false

/-- `DataPh(T)` (30_encoding.md R118). -/
def dataPh (d : Direction) : Byte := if d.isIn then PHS_DATA_IN else PHS_DATA_OUT

/-- INTS after the folding (R352): the chip's and the XT block's requests are folded in. -/
def Controller.foldedIstr (c : Controller) : Byte :=
  match c.cfg.variant with
  | .cbmDmac | .cbmSdmac => if c.xtIrq || c.auxInt then setBits c.istr ISTR_INTS else c.istr
  | .gvpS1 | .gvpS2 | .none => c.istr

/-- G_PEND after the folding (R353): the chip's request is folded in. -/
def Controller.foldedGcntr (c : Controller) : Half :=
  match c.cfg.variant with
  | .gvpS2 => if c.auxInt then setBits c.gcntr GCNTR_G_PEND else c.gcntr
  | .cbmDmac | .cbmSdmac | .gvpS1 | .none => c.gcntr

/-- The latch side of the predicates (R350: "its latch side effects (the folding)"). -/
def Controller.foldLatch (c : Controller) : Controller := { c with istr := c.foldedIstr, gcntr := c.foldedGcntr }

/-- `Pred` (R351 to R354), after the folding. -/
def Controller.pred (c : Controller) : Bool :=
  match c.cfg.variant with
  | .cbmDmac | .cbmSdmac => hasBit c.cntr CNTR_INTEN && hasBit c.istr (ISTR_INTS ||| ISTR_E_INT)
  | .gvpS1 => c.dmaStarted && c.auxInt
  | .gvpS2 => hasBit c.gcntr GCNTR_G_PEND && hasBit c.gcntr GCNTR_G_INTEN
  | .none => false

/-- What one controller contributes to the line (R350, R49). -/
def Controller.contributes (c : Controller) : Bool := c.enabled && c.pred

end Sys2Proof.Machine
end

