-- ==== Sys2Proof/Machine/Ops.lean ====
section
/-! DEFINITION. The named operations every meaning is written over: memory, free values, the delay queue, the
transfer counter, the scratch mirror, the target calls, the command queue, the interrupt line. Taking an exception is
`Controller.deliver` (60_exceptions.md R361: "'Trap entry' is Deliver"), fed by `Controller.post` (R330: `raise`);
the return is `State.acknowledge` (R362: "'Trap return' is the host's read of SCSI_STATUS"). -/

namespace Sys2Proof.Machine

/-! ### Memory -/

/-- The canonical form: addresses strictly rising. No entry can equal what an unlisted address reads as, since that
is no value at all. -/
abbrev Memory.wf (m : Memory) : Prop := m.Pairwise (fun x y => x.1 < y.1)

/-- The byte at `a`, none where nothing has written it. -/
def Memory.find (m : Memory) (a : Nat) : Option Byte :=
  match m with
  | [] => none
  | (b, v) :: m => if a = b then some v else Memory.find m a

/-- The byte at `a` becomes `v`. -/
def Memory.put (m : Memory) (a : Nat) (v : Byte) : Memory :=
  match m with
  | [] => [(a, v)]
  | (b, w) :: m =>
    if a < b then (a, v) :: (b, w) :: m
    else if a = b then (a, v) :: m
    else (b, w) :: Memory.put m a v

/-- Bytes at ascending offsets from `a`. -/
def Memory.putAll (m : Memory) (a : Nat) (vs : List Byte) : Memory :=
  match vs with
  | [] => m
  | v :: vs => Memory.putAll (Memory.put m a v) (a + 1) vs

/-- A free byte, and the counter past it (log 14). -/
def State.drawByte (s : State) : State × Byte :=
  ({ s with draws := s.draws + 1 }, Config.freeByte s.draws)

/-- A byte that may be unspecified: a free value where it is. -/
def State.orDraw (s : State) (v : Option Byte) : State × Byte :=
  match v with
  | some v => (s, v)
  | none => s.drawByte

/-- Something decodes host address `a` (20_memory.md R80). -/
def State.decodes (s : State) (a : Word) : Bool :=
  s.memMap.any fun r => decide (r.base ≤ a.toNat) && decide (a.toNat < r.base + r.size)

/-- The byte of host memory at `a`, none where the model fixes no value: nothing has written it, or nothing decodes
`a` (R80, log 12). -/
def State.memByte (s : State) (a : Word) : Option Byte :=
  if s.decodes a then Memory.find s.mem a.toNat else none

/-- `MemRead(a, 1)` (R80). -/
def State.memRead (s : State) (a : Word) : State × Byte := s.orDraw (s.memByte a)

/-- `MemWrite(a, 1, v)` (R80): dropped where nothing decodes `a`. -/
def State.memWrite (s : State) (a : Word) (v : Byte) : State :=
  if s.decodes a then { s with mem := Memory.put s.mem a.toNat v } else s

/-! ### The interrupt line -/

/-- `Recompute()` (60_exceptions.md R350): every controller's latch folds, and the line is the OR of the enabled
controllers' predicates. -/
def State.recompute (s : State) : State :=
  let ctl := s.ctl.foldLatch
  let others := s.others.map Controller.foldLatch
  { s with ctl := ctl, others := others, irqLine := (ctl :: others).any Controller.contributes }

/-! ### The delay queue (41_delay_queue.md) -/

/-- `Countdown(delayTicks)` (R170). -/
def countdown (delayTicks : Nat) : Nat := if delayTicks ≤ 1 then 1 else delayTicks

/-- `Post(status, delayTicks)` (R172): the slot at `qIndex` is written, occupied or not. -/
def Controller.post (c : Controller) (status : Byte) (delayTicks : Nat) : Controller :=
  { c with
    queue := c.queue.set c.qIndex { status := status, count := countdown delayTicks }
    qIndex := (c.qIndex + 1) % c.cfg.qcap }

/-- TAKING AN EXCEPTION: `Deliver(s)` (R176). The status latch takes the status, the interrupt becomes pending,
`busy` falls. -/
def Controller.deliver (c : Controller) (status : Byte) : Controller :=
  { c.setReg SCSI_STATUS status with auxInt := true, busy := false }

/-- What one poll does to a slot (R174). -/
def pollSlot (q : Slot) : Slot := { q with count := q.count - 1 }

/-- The statuses one poll delivers, in ascending slot order (R174, R175). -/
def expired (queue : List Slot) : List Byte := (queue.filter fun q => q.count == 1).map Slot.status

/-- `pollOnce()` (R174): nothing while the interrupt is pending; else every occupied slot counts down and the slots
that stood at 1 are delivered. The gate is tested once. -/
def Controller.pollOnce (c : Controller) : Controller :=
  if c.auxInt then c
  else (expired c.queue).foldl Controller.deliver { c with queue := c.queue.map pollSlot }

/-- RETURN FROM THE EXCEPTION: the read of SCSI_STATUS (40_register_access.md R151). The pending flag and the
variant's folded bit fall, the line is recomputed (log 26). -/
def State.acknowledge (s : State) : State × Byte :=
  let v := s.ctl.reg SCSI_STATUS
  let t := s.upd fun c =>
    match c.cfg.variant with
    | .cbmDmac | .cbmSdmac => { c with auxInt := false, istr := clearBits c.istr ISTR_INTS }
    | .gvpS2 => { c with auxInt := false, gcntr := clearBits c.gcntr GCNTR_G_PEND }
    | .gvpS1 | .none => { c with auxInt := false }
  (t.recompute, v)

/-! ### The transfer counter and the scratch mirror -/

/-- `DecTC()` (43_transfer_callbacks.md R230): true exactly when the counter is zero after the call. -/
def Controller.decTc (c : Controller) : Controller × Bool :=
  if c.tc = 0 then (c, true)
  else (c.setTc (c.tc - 1), c.tc - 1 == 0)

/-- One moved byte is mirrored into `scratch` (10_state.md R28): dropped past the end, the offset advances. -/
def Controller.mirror (c : Controller) (b : Byte) : Controller :=
  { c with
    scratch := if c.scratchOff < c.cfg.scratchSize then Memory.put c.scratch c.scratchOff b else c.scratch
    scratchOff := c.scratchOff + 1 }

/-! ### The target's calls (20_memory.md R90) -/

/-- `T.begin()`: nothing but the offset. -/
def Target.begin (t : Target) : Target := { t with offset := 0 }

/-- `T.send(b) -> end`. A command byte past the 16th is dropped (log 10). -/
def Target.send (t : Target) (b : Byte) : Target × Bool :=
  let t := if t.direction = .command then { t with cmd := t.cmd.setIfInBounds t.offset b }
    else { t with data := Memory.put t.data t.offset b }
  ({ t with offset := t.offset + 1 }, decide (t.dataLength ≤ t.offset + 1))

/-- The byte `T.recv()` gives in `phase`: the status byte in status phase, the next message byte in message-in phase,
else the target's byte at the offset (log 9). -/
def State.recvByte (s : State) (t : Target) (phase : Byte) : State × Target × Byte :=
  if phase = PHASE_STATUS ∨ phase = PHASE_STATUS_ALT then (s, t, t.status)
  else if phase = PHASE_MESSAGE_IN then
    match t.messageReplies with
    | b :: bs => (s, { t with messageReplies := bs }, b)
    | [] => (s.drawByte.1, t, s.drawByte.2)
  else ((s.orDraw (Memory.find t.data t.offset)).1, t, (s.orDraw (Memory.find t.data t.offset)).2)

/-- `T.recv() -> (b, end)`: the target with its offset advanced, the byte, and whether the phase ends. -/
def State.recv (s : State) (t : Target) (phase : Byte) : State × Target × Byte × Bool :=
  let (s, t, b) := s.recvByte t phase
  (s, { t with offset := t.offset + 1 }, b, decide (t.dataLength ≤ t.offset + 1))

/-- `T.analyze()`: the reply given as an input, else a free one. -/
def State.analyze (s : State) (t : Target) : State × Target :=
  let report (t : Target) (r : AnalyzeReply) : Target :=
    { t with cmdLength := r.cmdLength.val, direction := reportedDirection r.direction, dataLength := r.dataLength }
  match t.analyzeReplies with
  | r :: rs => (s, report { t with analyzeReplies := rs } r)
  | [] => ({ s with draws := s.draws + 1 }, report t (Config.freeAnalyze s.draws))

/-- `T.execute()`: it sets the status; a device-to-host command fills the target's data, and `dataLength` is how many
bytes that is (log 11). -/
def State.execute (s : State) (t : Target) : State × Target :=
  let perform (t : Target) (r : ExecuteReply) : Target :=
    if t.direction.isIn then
      { t with status := r.status, data := Memory.putAll [] 0 r.data, dataLength := r.data.length }
    else { t with status := r.status }
  match t.executeReplies with
  | r :: rs => (s, perform { t with executeReplies := rs } r)
  | [] => ({ s with draws := s.draws + 1 }, perform t (Config.freeExecute s.draws))

/-- The current target changes by `f`; nothing where there is none. -/
def State.modTarget (s : State) (f : Target → Target) : State :=
  match s.target with
  | none => s
  | some t => s.upd fun c => c.setTarget (f t)

/-- `T.begin()` on the current target. -/
def State.beginTarget (s : State) : State := s.modTarget Target.begin

/-- `T.analyze()` on the current target. -/
def State.analyzeTarget (s : State) : State :=
  match s.target with
  | none => s
  | some t => (s.analyze t).1.upd fun c => c.setTarget (s.analyze t).2

/-- `T.execute()` on the current target. -/
def State.executeTarget (s : State) : State :=
  match s.target with
  | none => s
  | some t => (s.execute t).1.upd fun c => c.setTarget (s.execute t).2

/-! ### The command queue (45_dispatch.md) -/

/-- `tid`: the current target's SCSI ID, 0 when there is none (R301). -/
def Controller.curTid (c : Controller) : Byte :=
  match c.curTarget with
  | none => 0
  | some i => BitVec.ofNat 8 i.val

/-- `TidOf(regs[0x15][2:0])` (R148): the ID where a target is attached, else 0. -/
def Controller.destTid (c : Controller) : Byte :=
  if (c.targetAt c.destId).isSome then BitVec.ofNat 8 c.destId.val else 0

/-- `Enqueue(tid, mtype, cmd)` (R301); none when the queue is full, where the host is held (R302). -/
def State.enqueue (s : State) (w : Word) : Option State :=
  if s.ctl.cmdq.length < s.ctl.cfg.cmdqCap then some (s.upd fun c => { c with cmdq := c.cmdq ++ [w] }) else none

end Sys2Proof.Machine
end

