-- ==== Sys2Proof/Machine/Dma.lean ====
section
/-! DEFINITION. The three DMA pumps (44_dma_engines.md R263 to R277). -/

namespace Sys2Proof.Machine

/-- `WtcStep()` (R266): a completed word counts; the count's fall to zero raises the end-of-process interrupt. -/
def State.wtcStep (s : State) : State :=
  let c := s.ctl
  if hasBit c.cntr CNTR_TCEN ∧ c.acr.getLsbD 0 = false ∧ c.wtc ≠ 0 then
    if c.wtc - 1 = 0 then
      (s.upd fun c => { c with wtc := c.wtc - 1, istr := setBits c.istr ISTR_E_INT }).recompute
    else s.upd fun c => { c with wtc := c.wtc - 1 }
  else s

/-- `Store(b)` (R264, R270, R274). The pure-XT board has no pump (R5). -/
def State.pumpStore (s : State) (b : Byte) : State :=
  match s.ctl.cfg.variant with
  | .cbmDmac | .cbmSdmac => s.memWrite s.ctl.acr b
  | .gvpS1 => s.upd fun c => { c with sram := Memory.put c.sram c.sramOff b }
  | .gvpS2 => s.memWrite s.ctl.gaddr b
  | .none => s

/-- `Fetch()` (R264, R270, R274). -/
def State.pumpFetch (s : State) : State × Byte :=
  match s.ctl.cfg.variant with
  | .cbmDmac | .cbmSdmac => s.memRead s.ctl.acr
  | .gvpS1 => s.orDraw (Memory.find s.ctl.sram s.ctl.sramOff)
  | .gvpS2 => s.memRead s.ctl.gaddr
  | .none => s.drawByte

/-- `AdvanceAddress(inbound)` (R264, R270, R271, R274). -/
def State.pumpAdvance (s : State) (inbound : Bool) : State :=
  match s.ctl.cfg.variant with
  | .cbmDmac | .cbmSdmac => (s.upd fun c => { c with acr := c.acr + 1 }).wtcStep
  | .gvpS1 => s.upd fun c =>
      { c with
        sramOff := (c.sramOff + 1) % c.cfg.sramSize
        gaddr := if inbound then c.gaddr else (c.gaddr + 1) &&& c.cfg.addrMask }
  | .gvpS2 => s.upd fun c => { c with gaddr := (c.gaddr + 1) &&& c.cfg.addrMask }
  | .none => s

/-- The bookkeeping after a byte has moved (R263): mirror, advance, count. True when the loop ends. -/
def State.pumpCount (s : State) (inbound : Bool) (b : Byte) (ended : Bool) : State × Bool :=
  let s := (s.upd fun c => c.mirror b).pumpAdvance inbound
  (s.upd fun c => c.decTc.1, ended || s.ctl.decTc.2)

/-- One turn of the pump's loop (R263). True when the loop ends. -/
def State.pumpByte (s : State) (t : Target) : State × Bool :=
  if t.direction.isIn then
    let (s, t, b, ended) := s.recv t s.ctl.phase
    ((s.upd fun c => c.setTarget t).pumpStore b).pumpCount true b ended
  else
    let (s, b) := s.pumpFetch
    (s.upd fun c => c.setTarget (t.send b).1).pumpCount false b (t.send b).2

/-- The loop (R263), at most `n` more turns. -/
def State.pumpLoop (n : Nat) (s : State) : State :=
  match n with
  | 0 => s
  | n + 1 =>
    match s.target with
    | none => s
    | some t => if (s.pumpByte t).2 then (s.pumpByte t).1 else State.pumpLoop n (s.pumpByte t).1

/-- The turns the loop can take: it ends when the counter stands at zero, after one turn at least (R263, R277). -/
def Controller.pumpTurns (c : Controller) : Nat := max 1 c.tc.toNat

/-- `Pump()` (R263). False where it refuses to start: no target, no direction, the GVP Series II direction fault
(R275), or the pure-XT board, which has no pump (R5, log 27). -/
def State.pump (s : State) : State × Bool :=
  match s.target with
  | none => (s, false)
  | some t =>
    if t.direction = .nothing then (s, false)
    else if s.ctl.cfg.variant = .none then (s, false)
    else if s.ctl.cfg.variant = .gvpS2 ∧ s.ctl.dirMismatch t.direction then (s, false)
    else (State.pumpLoop s.ctl.pumpTurns s, true)

/-- The host address of the `n`-th byte of a pump that starts at `c`, none for a variant that does not reach host
memory (R264, R270, R274). -/
def Controller.pumpAddress (c : Controller) (n : Nat) : Option Word :=
  match c.cfg.variant with
  | .cbmDmac | .cbmSdmac => some (c.acr + BitVec.ofNat 32 n)
  | .gvpS2 => some ((c.gaddr + BitVec.ofNat 32 n) &&& c.cfg.addrMask)
  | .gvpS1 | .none => none

end Sys2Proof.Machine
end

