-- ==== Sys2Proof/Machine/Callbacks.lean ====
section
/-! DEFINITION. The transfer-completion callbacks (43_transfer_callbacks.md R239 to R248). -/

namespace Sys2Proof.Machine

/-- Data phase on read: 0x44 or 0x45 (10_state.md R24, R250). -/
def dataPhase (p : Byte) : Bool := p == PHASE_DATA_SETUP || p == PHASE_DATA

/-- Status phase on read: 0x46 or 0x47 (R24, R250). -/
def statusPhase (p : Byte) : Bool := p == PHASE_STATUS || p == PHASE_STATUS_ALT

/-- The tail of the advancing arms (R247; the last four lines of R248). -/
def Controller.advanceTail (c : Controller) (status : Byte) : Controller :=
  { ({ c with scratchOff := 0 }.setTc 0).post status 1 with busy := false }

/-- The message was sent (R240): its first byte is the identify message. -/
def State.messageSent (s : State) : State :=
  let r := s.orDraw (Memory.find s.ctl.scratch 0)
  (r.1.modTarget fun t => { t with identify := r.2, status := 0, offset := 0 }).upd fun c =>
    (c.setPhase PHASE_MESSAGE_SENT).advanceTail (CSR_XFER_DONE + PHS_COMMAND)

/-- The command was sent (R241), after `analyze` has reported `t`. -/
def State.commandAnalyzed (s : State) (t : Target) : State :=
  if t.direction.isOut ∧ 0 < t.dataLength then
    s.beginTarget.upd fun c => (c.setPhase PHASE_DATA).advanceTail (CSR_XFER_DONE + PHS_DATA_OUT)
  else
    let s := s.executeTarget
    match s.target with
    | none => s
    | some t =>
      if t.direction.isIn ∧ 0 < t.dataLength then
        s.beginTarget.upd fun c => (c.setPhase PHASE_DATA).advanceTail (CSR_XFER_DONE + PHS_DATA_IN)
      else
        s.beginTarget.upd fun c => (c.setPhase PHASE_STATUS).advanceTail (CSR_XFER_DONE + PHS_STATUS)

/-- The command was sent (R241). -/
def State.commandSent (s : State) : State :=
  match s.analyzeTarget.target with
  | none => s
  | some t => s.analyzeTarget.commandAnalyzed t

/-- The data was sent (R245): an outbound command runs now. -/
def State.dataSent (s : State) (t : Target) : State :=
  let s := if t.direction.isOut then s.executeTarget else s
  s.beginTarget.upd fun c => (c.setPhase PHASE_STATUS).advanceTail (CSR_XFER_DONE + PHS_STATUS)

/-- `transferOut()` (R239 to R247). False when the transfer is not finished (R244). -/
def State.transferOut (s : State) : State × Bool :=
  match s.target with
  | none => (s, true)
  | some t =>
    if s.ctl.phase.toNat < PHASE_MESSAGE_SENT.toNat then (s.messageSent, true)
    else if s.ctl.phase = PHASE_COMMAND then (s.commandSent, true)
    else if dataPhase s.ctl.phase then
      if t.offset < t.dataLength then
        (s.upd fun c => c.post (CSR_XFER_DONE + PHS_DATA_OUT) c.cfg.tRetryOut, false)
      else (s.dataSent t, true)
    else (s, true)

/-- The advancing arms of `transferIn` (R248): the next phase and its status. -/
def State.inAdvance (s : State) (next status : Byte) : State :=
  s.beginTarget.upd fun c => (c.setPhase next).advanceTail status

/-- `transferIn(msgFlag)` (R248). The flag has no effect (45_dispatch.md R309). -/
def State.transferIn (s : State) (_msgFlag : Bool) : State × Bool :=
  match s.target with
  | none => (s, true)
  | some t =>
    let s := s.upd fun c => { c with scratchOff := 0 }
    if dataPhase s.ctl.phase then
      if t.offset < t.dataLength then
        (s.upd fun c => c.post (CSR_XFER_DONE + dataPh t.direction) c.cfg.tRetryIn, false)
      else
        (s.inAdvance PHASE_STATUS ((if s.ctl.tc = 0 then CSR_XFER_DONE else CSR_UNEXP) + PHS_STATUS), true)
    else if statusPhase s.ctl.phase then (s.inAdvance PHASE_MESSAGE_IN (CSR_XFER_DONE + PHS_MESS_IN), true)
    else if s.ctl.phase = PHASE_MESSAGE_IN then
      if t.offset < t.dataLength then
        (s.upd fun c => c.post (CSR_XFER_DONE + PHS_MESS_IN) c.cfg.tRetryIn, false)
      else
        ((s.upd fun c => { c with selected := false }).inAdvance PHASE_COMPLETE CSR_DISC, true)
    else (s, true)

end Sys2Proof.Machine
end

