-- ==== Sys2Proof/Machine/Commands.lean ====
section
/-! DEFINITION. The chip commands (42_chip_commands.md), one meaning for each format C row of the opcode table. -/

namespace Sys2Proof.Machine

/-! ### Reset (R190, R191) -/

/-- The registers Reset zeroes: 0x01..0x15 and 0x18. -/
def resetRegs : List RegNum :=
  [0x01, 0x02, 0x03, 0x04, 0x05, 0x06, 0x07, 0x08, 0x09, 0x0A, 0x0B, 0x0C, 0x0D, 0x0E, 0x0F, 0x10,
   0x11, 0x12, 0x13, 0x14, 0x15, 0x18]

/-- Every register of the list becomes 0. -/
def Controller.zeroRegs (c : Controller) (rs : List RegNum) : Controller :=
  match rs with
  | [] => c
  | r :: rs => Controller.zeroRegs (c.setReg r 0) rs

/-- The chip's part of `ResetProc` (R190): every line but the post and the recompute. -/
def Controller.resetChip (c : Controller) : Controller :=
  { c.zeroRegs resetRegs with
    sasr := 0
    selected := false
    curTarget := none
    queue := c.queue.map fun q => { q with count := 0 }
    qIndex := 0
    auxInt := false
    dataAvail := .closed }

/-- `ResetProc(irq)` (R190). -/
def State.resetProc (s : State) (irq : Bool) : State :=
  let status := if hasBit (s.ctl.reg OWN_ID) OWN_ID_EAF then CSR_RESET_AF else CSR_RESET
  let s := s.upd Controller.resetChip
  let s := if irq then s.upd fun c => c.post status c.cfg.tReset else s
  s.recompute

/-- RESET (R191). -/
def execReset (_sbt : Bool) (s : State) : Outcome := .next (s.resetProc true)

/-- ABORT (R193): logged, no state read or written. -/
def execAbort (_sbt : Bool) (s : State) : Outcome := .next s

/-! ### Select (R195 to R199) -/

/-- `Select(atn)` (R199). -/
def State.select (s : State) (atn : Bool) : State :=
  let s := s.upd fun c => c.setPhase PHASE_IDLE
  match s.ctl.lookup with
  | none => s.upd fun c => { c with curTarget := none }.post CSR_TIMEOUT c.cfg.tTimeout
  | some id =>
    let s := (s.upd fun c => { c with curTarget := some id }).beginTarget
    let s := s.upd fun c => { c with selected := true }.post CSR_SELECT c.cfg.tSel1
    if atn then s.upd fun c => (c.setPhase PHASE_MESSAGE_OUT).post (CSR_SRV_REQ + PHS_MESS_OUT) c.cfg.tSel2
    else s.upd fun c => (c.setPhase PHASE_COMMAND).post (CSR_SRV_REQ + PHS_COMMAND) c.cfg.tSel2

/-- SEL_ATN (R197). -/
def execSelAtn (_sbt : Bool) (s : State) : Outcome := .next (s.select true)

/-- SEL (R198). -/
def execSel (_sbt : Bool) (s : State) : Outcome := .next (s.select false)

/-! ### Select-and-Transfer (R205 to R216): the steps A to E, in order. A step that ends the command answers `true`
beside the state. -/

/-- The command bytes `T.cmd[0..11] <- regs[0x03..0x0E]` (R207). -/
def Controller.cdbInto (c : Controller) (cmd : Vector Byte 16) : Vector Byte 16 :=
  (List.range 12).foldl (fun v i => v.setIfInBounds i (c.reg (CDB_1 + BitVec.ofNat 5 i))) cmd

/-- `T.cmd[0..cmdLength-1]` into the scratch mirror (R207). -/
def Controller.mirrorCmd (c : Controller) (t : Target) : Controller :=
  (List.range t.cmdLength).foldl (fun c i => c.mirror (t.cmd.getD i 0)) c

/-- The command part of step A (R207), for the current target. -/
def State.xferCommand (s : State) : State :=
  let s := s.modTarget fun t => { t with status := 0, cmd := s.ctl.cdbInto t.cmd }
  let s := s.analyzeTarget.beginTarget
  match s.target with
  | none => s
  | some t =>
    s.upd fun c =>
      (({ c with scratchOff := 0 }.mirrorCmd t).setPhase (PHASE_COMMAND + BitVec.ofNat 8 t.cmdLength)).setTc 0

/-- Step A after the lookup has found `id` (R207). -/
def State.xferSelected (s : State) (atn : Bool) (id : Fin 8) : State :=
  let s := s.upd fun c => { c with curTarget := some id }
  let s := if s.ctl.selected then s
    else s.upd fun c => { c with selected := true }.setPhase (if atn then PHASE_MESSAGE_OUT else PHASE_COMMAND)
  if s.ctl.phase.toNat ≤ PHASE_COMMAND.toNat then s.xferCommand else s

/-- Step B (R208): an inbound or data-less command runs now. -/
def State.xferExecute (s : State) (t : Target) : State :=
  if s.ctl.phase.toNat ≤ PHASE_CMD_RECEIVED.toNat then
    let s := if t.direction.isOut then s else s.executeTarget
    s.beginTarget.upd fun c => c.setPhase PHASE_DATA
  else s

/-- The target has data to move (R209). -/
def Target.hasData (t : Target) : Bool := t.direction.isOut || (t.direction.isIn && decide (0 < t.dataLength))

/-- Step C's pump and its three outcomes (R210); `d` is the direction the target reported. -/
def State.xferPumped (s : State) (d : Direction) : State × Bool :=
  let s := s.pump.1
  match s.target with
  | none => (s, false)
  | some t =>
    if t.offset < t.dataLength then (s.upd fun c => c.post (CSR_UNEXP + dataPh d) 1, true)
    else
      let s := if d.isOut then s.executeTarget else s
      if s.ctl.tc = 0 then (s, false)
      else (s.upd fun c => (c.setPhase PHASE_STATUS).post (CSR_UNEXP + PHS_STATUS) 1, true)

/-- Step C's data transfer (R209), when the target has data: the checks in the written order, then the pump. -/
def State.xferData (s : State) (t : Target) : State × Bool :=
  if s.ctl.tc = 0 then (s.upd fun c => c.post (CSR_UNEXP + dataPh t.direction) 1, true)
  else if !s.ctl.canDma then (s.upd fun c => c.post (CSR_SRV_REQ + dataPh t.direction) 1, true)
  else if s.ctl.dirMismatch t.direction then (s.upd fun c => c.post (CSR_UNEXP + dataPh t.direction) 1, true)
  else s.xferPumped t.direction

/-- Step C (R209); `tc0` is the host's data-phase length. -/
def State.xferDataPhase (s : State) (tc0 : Count) (t : Target) : State × Bool :=
  if s.ctl.phase = PHASE_DATA then
    let s := s.upd fun c => { c with scratchOff := 0 }.setTc tc0
    let r := if t.hasData then s.xferData t else (s, false)
    if r.2 then r else (r.1.upd fun c => c.setPhase PHASE_STATUS, false)
  else (s, false)

/-- Step D (R214): TARGET_LUN receives the status byte. -/
def State.xferStatus (s : State) (t : Target) : State :=
  if s.ctl.phase = PHASE_STATUS then s.upd fun c => (c.setReg TARGET_LUN t.status).setPhase PHASE_MESSAGE_IN else s

/-- Step E (R215). -/
def State.xferComplete (s : State) : State :=
  s.upd fun c =>
    let c := { c with selected := false }.setPhase PHASE_COMPLETE
    if c.edi then c.post CSR_SEL_XFER_DONE 2 else (c.post CSR_SEL_XFER_DONE 2).post CSR_DISC 4

/-- The current target, for the steps that read it; `Target.fresh` stands where there is none, which no step meets:
step A has found one. -/
def State.xferTarget (s : State) : Target := s.target.getD Target.fresh

/-- `SelXfer(atn)` (R206 to R216). -/
def State.selXfer (s : State) (atn : Bool) : State :=
  let s := s.upd fun c => { c with dataAvail := .closed }
  let tc0 := s.ctl.tc
  match s.ctl.lookup with
  | none => s.upd fun c => ({ c with curTarget := none }.setPhase PHASE_IDLE).post CSR_TIMEOUT c.cfg.tTimeout
  | some id =>
    let s := s.xferSelected atn id
    let s := s.xferExecute s.xferTarget
    let r := s.xferDataPhase tc0 s.xferTarget
    if r.2 then r.1 else (r.1.xferStatus r.1.xferTarget).xferComplete

/-- SEL_ATN_XFER (R205). -/
def execSelAtnXfer (_sbt : Bool) (s : State) : Outcome := .next (s.selXfer true)

/-- SEL_XFER (R206). -/
def execSelXfer (_sbt : Bool) (s : State) : Outcome := .next (s.selXfer false)

/-! ### Transfer Info (R220 to R222) -/

/-- The direction and length of a transfer in `phase` (R221), `n` the transfer counter; none where no transfer opens. -/
def transferShape (phase : Byte) (n : Nat) (t : Target) : Option Target :=
  if phase.toNat < PHASE_MESSAGE_SENT.toNat then some { t with direction := .toDevice, dataLength := n }
  else if phase = PHASE_COMMAND then some { t with direction := .command, dataLength := n, cmdLength := n }
  else if dataPhase phase then some t
  else if statusPhase phase then some { t with direction := .toHost, dataLength := 1 }
  else if phase = PHASE_MESSAGE_IN then some { t with direction := .toHost, dataLength := 1 }
  else none

/-- The counter Transfer Info works with (R220): 1 for a single-byte transfer, and 1 for 0. -/
def transferCount (sbt : Bool) (tc : Count) : Count := if sbt || tc == 0 then 1 else tc

/-- Transfer Info from the second line of R220, the current target being `t`. -/
def State.transferOpen (s : State) (sbt : Bool) (t : Target) : State :=
  let entering := s.ctl.phase == PHASE_MESSAGE_SENT
  let t := if entering then { t with status := 0 } else t
  let s := s.upd fun c =>
    let c := if entering then (c.setPhase PHASE_COMMAND).setTarget t else c
    { c.setTc (transferCount sbt c.tc) with scratchOff := 0 }
  match transferShape s.ctl.phase s.ctl.tc.toNat t with
  | none => s.upd fun c => { c with dataAvail := .closed }
  | some t' => s.upd fun c =>
      { c.setTarget t' with dataAvail := if c.canDma then .dma else .pio }

/-- TRANS_INFO (R220). -/
def execTransInfo (sbt : Bool) (s : State) : Outcome :=
  match s.target with
  | none => .next s
  | some t => .next (s.transferOpen sbt t)

/-! ### Negate-Acknowledge and unrecognised commands -/

/-- NEGATE_ACK (R225). -/
def execNegateAck (_sbt : Bool) (s : State) : Outcome :=
  if s.ctl.phase = PHASE_MESSAGE_IN then .next (s.transferIn false).1 else .next s

/-- INVALID (R228). -/
def execInvalid (_sbt : Bool) (_op : BitVec 7) (s : State) : Outcome :=
  .next (s.upd fun c => c.post CSR_INVALID c.cfg.tInvalid)

end Sys2Proof.Machine
end

