-- ==== Sys2Proof/Machine/Messages.lean ====
section
/-! DEFINITION. The dispatch messages (45_dispatch.md R306 to R311), one meaning for each format M row of the opcode
table. -/

namespace Sys2Proof.Machine

/-- MSG_CMD (R306): the command byte is decoded as a format C row and executed; the target comes from the chip
registers, not from `tid` (R312). The message rows below are no result of `decodeCommand`. -/
def execMsgCmd (_tid cmd : Byte) (s : State) : Outcome :=
  match decodeCommand cmd with
  | .reset sbt => execReset sbt s
  | .abort sbt => execAbort sbt s
  | .negateAck sbt => execNegateAck sbt s
  | .selAtn sbt => execSelAtn sbt s
  | .sel sbt => execSel sbt s
  | .selAtnXfer sbt => execSelAtnXfer sbt s
  | .selXfer sbt => execSelXfer sbt s
  | .transInfo sbt => execTransInfo sbt s
  | .invalid sbt op => execInvalid sbt op s
  | .msgShutdown => .next s
  | .msgCmd _ _ => .next s
  | .msgContIn _ _ => .next s
  | .msgContOut _ _ => .next s
  | .msgContInMsg _ _ => .next s
  | .msgUnknown _ _ _ => .next s

/-- MSG_CONT_IN (R307). -/
def execMsgContIn (_tid _cmd : Byte) (s : State) : Outcome := .next (s.transferIn false).1

/-- MSG_CONT_OUT (R308). -/
def execMsgContOut (_tid _cmd : Byte) (s : State) : Outcome := .next s.transferOut.1

/-- MSG_CONT_IN_MSG (R309). -/
def execMsgContInMsg (_tid _cmd : Byte) (s : State) : Outcome := .next (s.transferIn true).1

/-- MSG_UNKNOWN (R310): logged, no state change. -/
def execMsgUnknown (_tid : Byte) (_mtype : Half) (_cmd : Byte) (s : State) : Outcome := .next s

/-- MSG_SHUTDOWN (R311). -/
def execMsgShutdown (s : State) : Outcome := .next (s.upd fun c => { c with workerAlive := false })

end Sys2Proof.Machine
end

