-- ==== Sys2Proof/Machine/Dispatch.lean ====
section
/-! DEFINITION. The instructions' meanings, one arm for each constructor. -/

namespace Sys2Proof.Machine

def exec (i : Instr) (s : State) : Host.Outcome State Fault Refusal :=
  match i with
  -- format M: dispatch messages
  | .msgShutdown => Sys2Proof.Machine.execMsgShutdown s
  | .msgCmd tid cmd => Sys2Proof.Machine.execMsgCmd tid cmd s
  | .msgContIn tid cmd => Sys2Proof.Machine.execMsgContIn tid cmd s
  | .msgContOut tid cmd => Sys2Proof.Machine.execMsgContOut tid cmd s
  | .msgContInMsg tid cmd => Sys2Proof.Machine.execMsgContInMsg tid cmd s
  | .msgUnknown tid mtype cmd => Sys2Proof.Machine.execMsgUnknown tid mtype cmd s
  -- format C: chip commands
  | .reset sbt => Sys2Proof.Machine.execReset sbt s
  | .abort sbt => Sys2Proof.Machine.execAbort sbt s
  | .negateAck sbt => Sys2Proof.Machine.execNegateAck sbt s
  | .selAtn sbt => Sys2Proof.Machine.execSelAtn sbt s
  | .sel sbt => Sys2Proof.Machine.execSel sbt s
  | .selAtnXfer sbt => Sys2Proof.Machine.execSelAtnXfer sbt s
  | .selXfer sbt => Sys2Proof.Machine.execSelXfer sbt s
  | .transInfo sbt => Sys2Proof.Machine.execTransInfo sbt s
  | .invalid sbt op => Sys2Proof.Machine.execInvalid sbt op s

end Sys2Proof.Machine
end

