-- ==== Sys2Proof/Machine/Fetch.lean ====
section
/-! DEFINITION. Where the worker finds its next instruction: the head of the acting controller's command queue
(45_dispatch.md R305). -/

namespace Sys2Proof.Machine

/-- A worker step of the acting controller has removed a message: a host held at its full queue is held no longer (R302,
log 41). -/
def State.liftHold (s : State) : State :=
  { s with hostHeld := if s.hostHeld = some s.ctl.slot then none else s.hostHeld }

/-- The word the worker would dequeue, none when the worker step is not enabled (R305), and the state behind it. -/
def State.fetch (s : State) : Option (Word × State) :=
  if s.ctl.workerAlive then
    match s.ctl.cmdq with
    | [] => none
    | w :: ws => some (w, (s.upd fun c => { c with cmdq := ws }).liftHold)
  else none

/-- The message word that carries the `nbits` bits `w`: a word of its own, or a chip command, which reaches the worker
inside a MSG_CMD word (R300, R306, log 3). The opcode table's MSG_SHUTDOWN is the board's own sentinel. -/
def fetchWord (sentinel : Word) (nbits w : Nat) : Word :=
  if nbits ≤ 8 then messageWord 0 MTYPE_CMD (BitVec.ofNat 8 w)
  else if BitVec.ofNat 32 w = SHUTDOWN then sentinel
  else BitVec.ofNat 32 w

/-- The next controller to choose: the `n`-th of all, counted round. -/
def State.nthSlot (s : State) (n : Nat) : Nat :=
  match s.controllers[n % s.controllers.length]? with
  | none => s.ctl.slot
  | some c => c.slot

/-- The turn a free choice stands for (00_scope.md R12, log 2). -/
def State.freeTurn (s : State) (t : FreeTurn) : Turn :=
  match t with
  | .host => .host
  | .worker n => .worker (s.nthSlot n)
  | .tick n => .tick (s.nthSlot n)

end Sys2Proof.Machine
end

