-- ==== Sys2Proof/Machine/Registers.lean ====
section
/-! DEFINITION. The host's accesses to the chip: ports SEL and DAT (40_register_access.md R140 to R155). An access
that would enqueue into a full command queue answers none: it is not enabled, the host is held (45_dispatch.md
R302). -/

namespace Sys2Proof.Machine

/-- `setPointer(v)` (R140): bits 7:5 are dropped. -/
def Controller.setPointer (c : Controller) (v : Byte) : Controller := { c with sasr := v.extractLsb' 0 5 }

/-- `advancePointer(afterWrite)` (R141). -/
def Controller.advancePointer (c : Controller) (afterWrite : Bool) : Controller :=
  if c.sasr = AUXILIARY_STATUS ∨ c.sasr = DATA ∨ c.sasr = COMMAND then c
  else if afterWrite ∧ c.sasr = SCSI_STATUS then c
  else { c with sasr := c.sasr + 1 }

/-- The message type a completed PIO read enqueues (R152). -/
def continueInType (phase : Byte) : Half := if PHASE_STATUS.toNat ≤ phase.toNat then MTYPE_CONT_IN_MSG else MTYPE_CONT_IN

/-- What R152 and R153 do once the byte has moved: the transfer stays open as PIO, or closes and enqueues. -/
def State.pioClose (s : State) (ended : Bool) (mtype : Half) : Option State :=
  if ended ∨ s.ctl.tc = 0 then
    (s.upd fun c => { c with dataAvail := .closed }).enqueue (messageWord s.ctl.curTid mtype 0)
  else some (s.upd fun c => { c with dataAvail := .pio })

/-- Read of DATA (R152). -/
def State.readData (s : State) : Option (State × Byte) :=
  match s.target with
  | none => some (s, 0)
  | some t =>
    if s.ctl.dataAvail = .closed then some (s, 0)
    else
      let (s, t, b, ended) := s.recv t s.ctl.phase
      let s := s.upd fun c => (((c.setTarget t).setReg DATA b).mirror b).decTc.1
      (s.pioClose ended (continueInType s.ctl.phase)).map fun s => (s, b)

/-- Write of DATA (R153). -/
def State.writeData (s : State) (v : Byte) : Option State :=
  let s := s.upd fun c => c.setReg DATA v
  match s.target with
  | none => some s
  | some t =>
    if s.ctl.dataAvail = .closed then some s
    else
      let s := s.upd fun c => ((c.mirror v).decTc.1).setTarget (t.send v).1
      s.pioClose (t.send v).2 MTYPE_CONT_OUT

/-- Write of COMMAND (R148). -/
def State.writeCommand (s : State) (v : Byte) : Option State :=
  (s.upd fun c => { c.setReg COMMAND v with busy := true }).enqueue (messageWord s.ctl.destTid MTYPE_CMD v)

/-- `readRegister(p)` (R143). -/
def State.readRegister (s : State) (p : RegNum) : Option (State × Byte) :=
  if p = AUXILIARY_STATUS then some (s, s.ctl.auxStatus)
  else if p = SCSI_STATUS then some s.acknowledge
  else if p = DATA then s.readData
  else some (s, s.ctl.reg p)

/-- `writeRegister(p, v)` (R145 to R148, R153, R154). -/
def State.writeRegister (s : State) (p : RegNum) (v : Byte) : Option State :=
  if p = SCSI_STATUS ∨ p = AUXILIARY_STATUS then some s
  else if p = OWN_ID then some (s.upd fun c => c.setReg OWN_ID (v &&& ownIdMask c.cfg.chipRev))
  else if p = COMMAND then s.writeCommand v
  else if p = DATA then s.writeData v
  else some (s.upd fun c => c.setReg p v)

/-- `DAT` read (R143). -/
def State.datRead (s : State) : Option (State × Byte) :=
  (s.readRegister s.ctl.sasr).map fun r => (r.1.upd fun c => c.advancePointer false, r.2)

/-- `DAT` write (R145). -/
def State.datWrite (s : State) (v : Byte) : Option State :=
  (s.writeRegister s.ctl.sasr v).map fun s => s.upd fun c => c.advancePointer true

end Sys2Proof.Machine
end

