-- ==== Sys2Proof/Machine/Ports.lean ====
section
/-! DEFINITION. The board's I/O page: the named port operations (44_dma_engines.md R280 to R293), and accesses by
offset and width (20_memory.md R72 to R75). -/

namespace Sys2Proof.Machine

/-- The answer to a host access. `data` is none for a write. -/
inductive PortAnswer where
  /-- the access is not enabled: the host is held (R302) -/
  | held
  | refused (r : Refusal)
  | done (s : State) (data : Option Word)

/-- The variants that have a port (R74, R293). Every chip has SEL and DAT (R72). -/
def hasPort (v : Variant) (p : Port) : Bool :=
  let cbm := v == .cbmDmac || v == .cbmSdmac
  let gvp := v == .gvpS1 || v == .gvpS2
  match p with
  | .sel | .dat => true
  | .cntr | .istr | .wtc _ | .acr _ | .dawr | .stDma | .spDma | .cint | .flush | .xtWindow => cbm
  | .gcntr | .gcntrByte _ | .gaddr _ | .gbank | .gStDma | .gSpDma => gvp
  | .sramOff | .sramWin => v == .gvpS1

/-- Byte `k` of a 32-bit register, 3 the most significant (R282). -/
def getByte (w : Word) (k : Fin 4) : Byte := w.extractLsb' (8 * k.val) 8

/-- `w[8k+7:8k] <- v` (R282). -/
def setByte (w : Word) (k : Fin 4) (v : Byte) : Word :=
  (w &&& ~~~((0xFF : Word) <<< (8 * k.val))) ||| (v.zeroExtend 32 <<< (8 * k.val))

/-- `GCNTR` write (R289): G_PEND keeps its old value. -/
def Controller.writeGcntr (c : Controller) (v : Half) : Controller :=
  { c with gcntr := clearBits v GCNTR_G_PEND ||| (c.gcntr &&& GCNTR_G_PEND) }

/-- `GCNTR` with byte `k` replaced, 1 the most significant. -/
def setGcntrByte (g : Half) (k : Fin 2) (v : Byte) : Half :=
  if k = 1 then v ++ g.extractLsb' 0 8 else g.extractLsb' 8 8 ++ v

/-- `GADDR` byte write (R290): kept masked. -/
def Controller.writeGaddr (c : Controller) (k : Fin 4) (v : Byte) : Controller :=
  { c with gaddr := setByte c.gaddr k v &&& c.cfg.addrMask }

/-- `ISTR` read (R281), after the recompute. `legacyDmac` acts on both Commodore variants, as R281 and 10_state.md R40 have
it, where 00_scope.md R5 gives the flag to CBM_DMAC: DESIGN CHOICE (log 39). -/
def Controller.istrValue (c : Controller) : Byte :=
  let v := c.istr
  let v := if hasBit v (ISTR_INTS ||| ISTR_E_INT) && hasBit c.cntr CNTR_INTEN then setBits v ISTR_INT_P else v
  if c.cfg.legacyDmac then v else setBits v ISTR_FE_FLG

/-- `CINT` (R287). -/
def State.cint (s : State) : State :=
  (s.upd fun c => { c with istr := clearBits (clearBits c.istr ISTR_INTS) ISTR_E_INT }).recompute

/-- `SRAMWIN` moves to the next byte of the buffer (R293). -/
def Controller.nextSram (c : Controller) : Controller := { c with sramOff := (c.sramOff + 1) % c.cfg.sramSize }

/-- A read that returns byte `b`. -/
def answerByte (s : State) (b : Byte) : PortAnswer := .done s (some (b.zeroExtend 32))

/-- A strobe acts on reads as on writes (R285 to R288, R292). The spec does not say what a read of one returns: a free
value (log 16). -/
def strobe (s : State) (a : Access) : PortAnswer :=
  match a with
  | .read => answerByte s.drawByte.1 s.drawByte.2
  | .write _ => .done s none

/-- An access that no port answers (R75): a read returns 0, a write is ignored. -/
def unnamedAccess (s : State) (a : Access) : PortAnswer :=
  match a with
  | .read => .done s (some 0)
  | .write _ => .done s none

/-- A read of port `p` of a variant that has it. -/
def State.portRead (s : State) (p : Port) : PortAnswer :=
  match p with
  | .sel => answerByte s s.ctl.auxStatus
  | .dat => match s.datRead with
    | none => .held
    | some r => answerByte r.1 r.2
  | .cntr => answerByte s s.ctl.cntr
  | .istr => answerByte s.recompute s.recompute.ctl.istrValue
  | .wtc k => answerByte s (getByte s.ctl.wtc k)
  | .acr k => answerByte s (getByte s.ctl.acr k)
  | .gcntr => .done s.recompute (some (s.recompute.ctl.gcntr.zeroExtend 32))
  | .gcntrByte k => answerByte s.recompute (s.recompute.ctl.gcntr.extractLsb' (8 * k.val) 8)
  | .gaddr k => answerByte s (getByte s.ctl.gaddr k)
  | .gbank => answerByte s s.ctl.gbank
  | .sramWin =>
    let r := s.orDraw (Memory.find s.ctl.sram s.ctl.sramOff)
    answerByte (r.1.upd Controller.nextSram) r.2
  | .stDma => strobe (s.upd fun c => { c with dmaActive := .started }) .read
  | .spDma => strobe (s.upd fun c => { c with dmaActive := .stopped }) .read
  | .cint => strobe s.cint .read
  | .flush => strobe s .read
  | .gStDma => strobe (s.upd fun c => { c with dmaActive := .started }).recompute .read
  | .gSpDma => strobe (s.upd fun c => { c with dmaActive := .stopped }).recompute .read
  | .dawr => answerByte s s.ctl.dawr
  | .sramOff => unnamedAccess s .read
  | .xtWindow => .refused .xtWindow

/-- A write of `v` to port `p` of a variant that has it. An access moves one byte, the low one of `v` (R71), `SRAMOFF`
too, to which R293 gives no width (log 37); only `GCNTR` by its name takes the whole register value (R289). -/
def State.portWrite (s : State) (p : Port) (v : Word) : PortAnswer :=
  let b : Byte := v.extractLsb' 0 8
  match p with
  | .sel => .done (s.upd fun c => c.setPointer b) none
  | .dat => match s.datWrite b with
    | none => .held
    | some s => .done s none
  | .cntr => .done (s.upd fun c => { c with cntr := b }).recompute none
  | .istr => unnamedAccess s (.write v)
  | .wtc k => .done (s.upd fun c => { c with wtc := setByte c.wtc k b }) none
  | .acr k => .done (s.upd fun c => { c with acr := setByte c.acr k b }) none
  | .dawr => .done (s.upd fun c => { c with dawr := b }) none
  | .gcntr => .done (s.upd fun c => c.writeGcntr (v.extractLsb' 0 16)).recompute none
  | .gcntrByte k => .done (s.upd fun c => c.writeGcntr (setGcntrByte c.gcntr k b)).recompute none
  | .gaddr k => .done (s.upd fun c => c.writeGaddr k b) none
  | .gbank => .done (s.upd fun c => { c with gbank := b }) none
  | .sramOff => .done (s.upd fun c => { c with sramOff := b.toNat % c.cfg.sramSize }) none
  | .sramWin => .done (s.upd fun c => { c with sram := Memory.put c.sram c.sramOff b }.nextSram) none
  | .stDma => strobe (s.upd fun c => { c with dmaActive := .started }) (.write v)
  | .spDma => strobe (s.upd fun c => { c with dmaActive := .stopped }) (.write v)
  | .cint => strobe s.cint (.write v)
  | .flush => strobe s (.write v)
  | .gStDma => strobe (s.upd fun c => { c with dmaActive := .started }).recompute (.write v)
  | .gSpDma => strobe (s.upd fun c => { c with dmaActive := .stopped }).recompute (.write v)
  | .xtWindow => .refused .xtWindow

/-- A named port operation (R74: the normative interface). A port of another variant is no port of this board, and is
answered as R75 says (log 17). -/
def State.portAccess (s : State) (p : Port) (a : Access) : PortAnswer :=
  if hasPort s.ctl.cfg.variant p then
    match a with
    | .read => s.portRead p
    | .write v => s.portWrite p v
  else unnamedAccess s a

/-! ### Accesses by offset -/

/-- The port at a page offset, by the board's `regmap` (R74). -/
def Controller.portAt (c : Controller) (off : Nat) : Option Port := (c.cfg.regmap.find? fun e => e.1 == off).map Prod.snd

/-- The ports a 16-bit access reaches as one access, of one byte (R71, R73). -/
def wordPort (p : Port) : Bool := p == .sel || p == .dat

/-- The parts of a page access that is more than one bus access, in order: a 32-bit access is two 16-bit accesses,
lower offset first (R73), and the half that goes with the lower offset is bits 31:16, DESIGN CHOICE (log 19; R73 and D41 give
the order only); a 16-bit access to byte registers is two byte accesses (R71, R76, log 19). Empty when it is one access. -/
def splitAccess (port : Option Port) (slot off : Nat) (w : Width) (a : Access) (joined : Bool) : List HostOp :=
  match w, a with
  | .byte, _ => []
  | .word, .read =>
    if port.any wordPort then []
    else [.page slot off .byte .read joined, .page slot (off + 1) .byte .read true]
  | .word, .write v =>
    if port.any wordPort then []
    else [.page slot off .byte (.write ((v.extractLsb' 8 8).zeroExtend 32)) joined,
          .page slot (off + 1) .byte (.write ((v.extractLsb' 0 8).zeroExtend 32)) joined]
  | .long, .read => [.page slot off .word .read joined, .page slot (off + 2) .word .read true]
  | .long, .write v =>
    [.page slot off .word (.write ((v.extractLsb' 16 16).zeroExtend 32)) joined,
     .page slot (off + 2) .word (.write ((v.extractLsb' 0 16).zeroExtend 32)) joined]

/-- One bus access to the page, which moves one byte (R71, R73): the operation of the port named there. Where a board's
`regmap` names `GCNTR` itself, that operation takes and gives the whole register, DESIGN CHOICE (log 38). -/
def State.pageAccess (s : State) (off : Nat) (a : Access) : PortAnswer :=
  match s.ctl.portAt off with
  | none => unnamedAccess s a
  | some p => s.portAccess p a

/-- What the host has read so far (log 15): the new data, below the earlier parts of a wider access. -/
def joinData (old data : Word) (w : Width) (joined : Bool) : Word :=
  if joined then
    match w with
    | .byte => (old <<< 8) ||| data
    | .word => (old <<< 16) ||| data
    | .long => data
  else data

end Sys2Proof.Machine
end

