-- ==== Sys2Proof/Machine/HostSide.lean ====
section
/-! DEFINITION. The host's turn: one pending access, one bus access at a time (00_scope.md R11, R12; 20_memory.md
R73; 45_dispatch.md R302, R322). -/

namespace Sys2Proof.Machine

/-- The answer to the host's turn. -/
inductive HostAnswer where
  /-- the queue is full: the host is held at the access until a worker step removes a message (R302) -/
  | held
  /-- the worker has not exited yet: the host goes on waiting (R322) -/
  | waits
  | refused (r : Refusal)
  | done (s : State)

/-- The controller takes what the host is about to do: a register access while it is enabled (10_state.md R49), a
teardown and the wait for it in any case (R322 asks for no more), neither once it has been torn down. Otherwise no step is
taken (93_implementation_defined.md U17). -/
def Controller.takes (c : Controller) (op : HostOp) : Bool :=
  !c.down &&
    match op with
    | .port _ _ _ => c.enabled
    | .page _ _ _ _ _ => c.enabled
    | .teardown _ => true
    | .awaitExit _ => true

/-- The answer of a port becomes the host's: the data read, if any, is kept in `hostData`. -/
def finishAccess (r : PortAnswer) (w : Width) (joined : Bool) : HostAnswer :=
  match r with
  | .held => .held
  | .refused r => .refused r
  | .done s none => .done s
  | .done s (some d) => .done { s with hostData := joinData s.hostData d w joined }

/-- A page access of the acting controller: its parts become pending, or it is one bus access. `rest` is what is
pending behind it, already in `s.hostOps`. -/
def State.hostPage (s : State) (slot off : Nat) (w : Width) (a : Access) (joined : Bool) : HostAnswer :=
  match splitAccess (s.ctl.portAt off) slot off w a joined with
  | [] => finishAccess (s.pageAccess off a) w joined
  | ops => .done { s with hostOps := ops ++ s.hostOps }

/-- Teardown (R322): the sentinel is enqueued, then the host waits for the worker's exit. -/
def State.teardown (s : State) (slot : Nat) : HostAnswer :=
  match s.enqueue s.ctl.cfg.shutdown with
  | none => .held
  | some s => .done { s with hostOps := .awaitExit slot :: s.hostOps }

/-- The host's wait (R322), while the worker is alive. -/
def State.awaitExit (s : State) : HostAnswer :=
  if s.ctl.workerAlive then .waits else .done (s.upd fun c => { c with down := true })

/-- The number of the controller an access is for. -/
def HostOp.slot (op : HostOp) : Nat :=
  match op with
  | .port slot _ _ => slot
  | .page slot _ _ _ _ => slot
  | .teardown slot => slot
  | .awaitExit slot => slot

/-- An access of the acting controller. -/
def State.hostAccess (s : State) (op : HostOp) : HostAnswer :=
  match op with
  | .port _ p a => finishAccess (s.portAccess p a) .long false
  | .page slot off w a joined => s.hostPage slot off w a joined
  | .teardown slot => s.teardown slot
  | .awaitExit _ => s.awaitExit

/-- The oldest pending access, of a host that no full queue holds. What a controller does not take, one that is absent,
disabled or torn down, is dropped (U17, log 24). What a full queue does not let through stays pending and holds the host
(R302, log 22). -/
def State.hostProceeds (s : State) : Outcome :=
  match s.hostOps with
  | [] => .next s
  | op :: ops =>
    match { s with hostOps := ops }.focus op.slot with
    | none => .next { s with hostOps := ops }
    | some s' =>
      if s'.ctl.takes op then
        match s'.hostAccess op with
        | .held => .next { s with hostHeld := some op.slot }
        | .waits => .next s
        | .refused r => .refused r
        | .done s'' => .next s''
      else .next { s with hostOps := ops }

/-- The host's turn (R11). A held host has no step, whatever else has changed: the hold ends with a worker step only
(R302, 93_implementation_defined.md U16; `State.liftHold`, log 41). -/
def State.hostTurn (s : State) : Outcome := if s.hostHeld.isSome then .next s else s.hostProceeds

end Sys2Proof.Machine
end

