-- ==== Sys2Proof/Machine/Lifecycle.lean ====
section
/-! DEFINITION. Board reset, construction and the other events from outside (45_dispatch.md R320 to R322, 10_state.md
R44, R45, R49, R55). -/

namespace Sys2Proof.Machine

/-- Board or system reset (R321): `ResetProc(false)`, the DMA-variant state, `busy`, `scratchOff`; the command queue
and the worker stand (log 25). -/
def State.boardReset (s : State) : State :=
  ((s.resetProc false).upd fun c =>
    { c with
      istr := 0, cntr := 0, wtc := 0, acr := 0, dawr := 0, gcntr := 0, gaddr := 0, gbank := 0,
      sramOff := 0, dmaActive := .stopped, busy := false, scratchOff := 0 }).recompute

/-- An event at the controller numbered `slot`; nothing happens where there is none, or where it has been torn down
(R322: "After teardown the instance takes no further step"). -/
def State.atSlot (s : State) (slot : Nat) (f : State → State) : State :=
  match s.focus slot with
  | none => s
  | some s' => if s'.ctl.down then s else f s'

/-- The parameters R8 allows: a capacity of at least one slot and one message, an SRAM size that is a power of two, one
of the two address masks, a sentinel that is no word of the block's (92_eei_decisions.md D29: "it cannot collide, since
real words have mtype <= 3"). -/
def paramsLegal (p : Params) : Bool :=
  decide (1 ≤ p.qcap) && decide (1 ≤ p.cmdqCap) && decide (1 ≤ p.sramSize)
    && (p.sramSize &&& (p.sramSize - 1)) == 0 && (p.addrMask == 0x00FFFFFF || p.addrMask == 0x01FFFFFF)
    && sentinelLegal p.shutdown

/-- Board-init of one more board (R320); no board has another's number, or parameters R8 does not allow (log 34).
How many boards of each variant there are is not bounded: R6's counts are those of the machines it quotes, DESIGN CHOICE
(log 40). -/
def State.construct (s : State) (slot : Nat) (cfg : Params) (ids : List (Fin 8)) : State :=
  if s.controllers.any (fun c => c.slot == slot) || !paramsLegal cfg then s
  else { s with others := s.others ++ [Controller.construct slot cfg (attach ids)] }

/-- An answer of the target layer joins those the target will give (20_memory.md R90). -/
def Target.addReply (t : Target) (r : TargetReply) : Target :=
  match r with
  | .analyze r => { t with analyzeReplies := t.analyzeReplies ++ [r] }
  | .execute r => { t with executeReplies := t.executeReplies ++ [r] }
  | .message b => { t with messageReplies := t.messageReplies ++ [b] }

/-- The same for the target at SCSI ID `id`, if one is attached. -/
def Controller.addReply (c : Controller) (id : Fin 8) (r : TargetReply) : Controller :=
  match c.targetAt id with
  | none => c
  | some t => { c with targets := c.targets.set id.val (some (t.addReply r)) }

/-- An event from outside the four agents. -/
def State.external (s : State) (e : External) : State :=
  match e with
  | .boardReset slot => s.atSlot slot State.boardReset
  | .construct slot cfg ids => s.construct slot cfg ids
  | .autoconfig slot en conf =>
    s.atSlot slot fun s => (s.upd fun c => { c with enabled := en, configured := conf }).recompute
  | .xtRequest slot level => s.atSlot slot fun s => (s.upd fun c => { c with xtIrq := level }).recompute
  | .xtDma slot v => s.atSlot slot fun s => (s.upd fun c => { c with dmaActive := v }).recompute
  | .memoryWrite a v => s.memWrite a v
  | .targetReply slot id r => s.atSlot slot fun s => s.upd fun c => c.addReply id r

end Sys2Proof.Machine
end

