-- ==== Sys2Proof/Machine/Tick.lean ====
section
/-! DEFINITION. The periodic tick (45_dispatch.md R315, R316). The XT part of the tick is out of scope. -/

namespace Sys2Proof.Machine

/-- `DmaContinue()` (R316), a transfer being open for the DMA engine and the engine started. -/
def State.dmaDrive (s : State) : State :=
  match s.target with
  | none => s.upd fun c => { c with dataAvail := .closed }
  | some t =>
    if t.direction = .nothing then s.upd fun c => { c with dataAvail := .closed }
    else if s.pump.2 then
      let s := s.pump.1.upd fun c => { c with dataAvail := .closed }
      if t.direction.isIn then (s.transferIn false).1 else s.transferOut.1
    else s.pump.1

/-- `DmaContinue()` (R316). -/
def State.dmaContinue (s : State) : State :=
  if s.ctl.dataAvail = .dma ∧ s.ctl.dmaStarted then s.dmaDrive else s

/-- One tick of the acting controller (R315): DmaContinue, pollOnce, Recompute, in this order. -/
def State.tick (s : State) : State := (s.dmaContinue.upd Controller.pollOnce).recompute

end Sys2Proof.Machine
end

