-- ==== Sys2Proof/Machine/Step.lean ====
section
/-! DEFINITION. One atomic step of the machine (00_scope.md R12): the agent whose turn it is acts. -/

namespace Sys2Proof.Machine

/-- The worker step of the acting controller (45_dispatch.md R305): the head word is removed, decoded and executed,
then the line is recomputed. Nothing happens where it is not enabled. -/
def State.workerStep (s : State) : Outcome :=
  match s.fetch with
  | none => .next s
  | some (w, s') =>
    match exec (decodeMessage s'.ctl.cfg.shutdown w) s' with
    | .next t => .next t.recompute
    | .fault r => .fault r
    | .refused r => .refused r

/-- A step of agent `t`. An agent whose step is not enabled changes nothing (R302, R305); a controller that is absent
or torn down takes no step (R322). -/
def State.turn (s : State) (t : Turn) : Outcome :=
  match t with
  | .host => s.hostTurn
  | .worker slot =>
    match s.focus slot with
    | none => .next s
    | some s' => s'.workerStep
  | .tick slot => .next (s.atSlot slot State.tick)
  | .external e => .next (s.external e)

/-- One step: the oldest scheduled turn, or, when none is scheduled, the one a free value picks (R12, logs 1, 2). -/
def step (s : State) : Host.Outcome State Fault Refusal :=
  match s.turns with
  | t :: ts => { s with turns := ts }.turn t
  | [] => { s with draws := s.draws + 1 }.turn (s.freeTurn (Config.freeTurn s.draws))

/-- `s` with the instruction of `nbits` bits `w` at the head of the acting controller's command queue, its worker
alive, and the next turn the worker's: the very next step fetches and runs it (log 3). -/
def State.withFetchWord (s : State) (nbits w : Nat) : State :=
  { s.upd fun c => { c with workerAlive := true, cmdq := fetchWord c.cfg.shutdown nbits w :: c.cmdq.tail } with
    turns := .worker s.ctl.slot :: s.turns }

end Sys2Proof.Machine
end

