-- ==== Sys2Proof/Safety.lean ====
section
/-! DEFINITION. What counts as a sound state, in the terms the statements use: invariants that every step keeps and
that reset has. -/

namespace Sys2Proof.Machine

/-- A message word the block itself produces: one of R111's types or the sentinel (45_dispatch.md R310: "The block
never enqueues one" of another type). -/
def knownMessage (sentinel w : Word) : Bool :=
  match decodeMessage sentinel w with
  | .msgUnknown _ _ _ => false
  | .msgShutdown | .msgCmd _ _ | .msgContIn _ _ | .msgContOut _ _ | .msgContInMsg _ _ => true
  | .reset _ | .abort _ | .negateAck _ | .selAtn _ | .sel _ | .selAtnXfer _ | .selXfer _ | .transInfo _
  | .invalid _ _ => true

/-- The delay queue has QCAP slots and its index is one of them (10_state.md R29). -/
abbrev Controller.queueOk (c : Controller) : Prop := c.queue.length = c.cfg.qcap ∧ c.qIndex < c.cfg.qcap

/-- The command queue is within its capacity and holds only words the block produces (R47, R310). -/
abbrev Controller.cmdqOk (c : Controller) : Prop :=
  c.cmdq.length ≤ c.cfg.cmdqCap ∧ c.cmdq.all (knownMessage c.cfg.shutdown) = true

/-- `gaddr` is kept masked, `sramOff` below SRAM_SIZE (R43), and `istr` bits 7, 4, 3, 2, 1, 0 are stored as zero
(R41). -/
abbrev Controller.dmaOk (c : Controller) : Prop :=
  c.gaddr &&& c.cfg.addrMask = c.gaddr ∧ c.sramOff < c.cfg.sramSize ∧ c.istr &&& 0x9F = 0

/-- The byte memories of the controller are in canonical form. -/
abbrev Controller.bytesOk (c : Controller) : Prop :=
  Memory.wf c.scratch ∧ Memory.wf c.sram ∧ ∀ i : Fin 8, ∀ t ∈ c.targetAt i, Memory.wf t.data

/-- What is true of every controller. -/
abbrev Controller.ok (c : Controller) : Prop :=
  paramsLegal c.cfg = true ∧ c.queueOk ∧ c.cmdqOk ∧ c.dmaOk ∧ c.bytesOk

/-- A held host is held at its oldest pending access, by the controller that access is for, whose command queue is full
(45_dispatch.md R302). -/
abbrev State.holdOk (s : State) : Prop :=
  ∀ k ∈ s.hostHeld, (∃ op ∈ s.hostOps.head?, op.slot = k) ∧
    ∃ c ∈ s.controllers, c.slot = k ∧ c.cmdq.length = c.cfg.cmdqCap

/-- The shape of the state: host memory in canonical form, every controller sound, no two with one number, no hold without
a full queue. -/
abbrev State.Shape (s : State) : Prop :=
  Memory.wf s.mem ∧ (∀ c ∈ s.controllers, c.ok) ∧ (s.controllers.map Controller.slot).Nodup ∧ s.holdOk

/-- The line agrees with the state (60_exceptions.md R355): another recompute changes nothing. -/
abbrev State.LineOk (s : State) : Prop := s.recompute = s

/-- How many bytes a pump moves that starts with `c` and target `t` (44_dma_engines.md R263, R277): to the target's end
or to the counter's zero, whichever comes first, and one at least. -/
def pumpBytes (c : Controller) (t : Target) : Nat := max 1 (min c.tc.toNat (t.dataLength - t.offset))

/-- What the target answers to `analyze`: the reply given as an input, else a free one (log 8). -/
def State.analyzeAnswer (s : State) (t : Target) : AnalyzeReply := t.analyzeReplies.head?.getD (Config.freeAnalyze s.draws)

/-- The free-value counter after `analyze`. -/
def State.drawsAnalyzed (s : State) (t : Target) : Nat := if t.analyzeReplies = [] then s.draws + 1 else s.draws

/-- What the target answers to `execute` when the free-value counter stands at `n` (log 8). -/
def Target.executeAnswer (t : Target) (n : Nat) : ExecuteReply := t.executeReplies.head?.getD (Config.freeExecute n)

/-- The free-value counter after `execute`. -/
def Target.drawsExecuted (t : Target) (n : Nat) : Nat := if t.executeReplies = [] then n + 1 else n

/-- What `T.execute()` leaves of the target (20_memory.md R90, log 11), the free-value counter standing at `n`. -/
def Target.executed (t : Target) (n : Nat) : Target :=
  let e := t.executeAnswer n
  let t := { t with status := e.status, executeReplies := t.executeReplies.tail }
  if t.direction = .toHost then { t with data := Memory.putAll [] 0 e.data, dataLength := e.data.length } else t

/-- Select-and-Transfer starts a new command (42_chip_commands.md R207): nothing is selected, or the phase is at most
0x30. -/
abbrev Controller.startsCommand (c : Controller) : Prop := c.selected = false ∨ c.regs[0x10].toNat ≤ 0x30

/-- Target `t`, and the free-value counter, when Select-and-Transfer reaches step C (42_chip_commands.md R207, R208): a new
command is taken from the CDB registers and analyzed; it, or one received before (phase 0x31 to 0x41), is executed now
unless it is outbound, and begins at offset 0; in a phase above, nothing has happened. -/
def State.readyForData (s : State) (t : Target) : Target × Nat :=
  let a := s.analyzeAnswer t
  let analyzed := { t with
    status := 0
    cmd := Vector.ofFn fun k : Fin 16 => if h : k.val < 12 then s.ctl.regs[3 + k.val] else t.cmd[k.val]
    cmdLength := a.cmdLength.val
    direction := reportedDirection a.direction
    dataLength := a.dataLength
    analyzeReplies := t.analyzeReplies.tail }
  let started (t : Target) (n : Nat) : Target × Nat :=
    if t.direction.isOut then ({ t with offset := 0 }, n) else ({ t.executed n with offset := 0 }, t.drawsExecuted n)
  if s.ctl.startsCommand then started analyzed (s.drawsAnalyzed t)
  else if s.ctl.regs[0x10].toNat ≤ 0x41 then started t s.draws
  else (t, s.draws)

/-- `m` is the scratch mirror after step A (R207): a new command leaves the command bytes of `r` there, as many as fit;
a resumed one leaves it as it is. It stays in canonical form. -/
def Controller.mirrors (c : Controller) (r : Target) (m : Memory) : Prop :=
  (Memory.wf c.scratch → Memory.wf m) ∧ (¬c.startsCommand → m = c.scratch) ∧
  (c.startsCommand → ∀ k, Memory.find m k =
    if k < r.cmdLength ∧ k < c.cfg.scratchSize then r.cmd[k]? else Memory.find c.scratch k)

/-- The host writes the bytes of `vs` at DAT, one after the other; none when it is held. -/
def State.datWrites (s : State) (vs : List Byte) : Option State :=
  match vs with
  | [] => some s
  | v :: vs =>
    match s.datWrite v with
    | none => none
    | some s => s.datWrites vs

/-- The moves of the command phase an instruction of controller `c` can make, to phase `b`, beside staying where it is: those
of R250's table and, for Select-and-Transfer, those of 42_chip_commands.md R207, R208, R215 and R216, which the table does not
list. A MSG_CMD word moves it as its chip command does (`carried`). -/
def phaseMove (i : Instr) (c : Controller) (b : Byte) : Prop :=
  let a := c.regs[0x10]
  -- Select-and-Transfer: a lookup that fails; completion; a stop in step C, which only a phase up to 0x41 or 0x45 reaches
  let transferred := (c.lookup = none ∧ b = 0x00) ∨ (c.lookup ≠ none ∧ b = 0x60) ∨
    (c.lookup ≠ none ∧ (c.selected = false ∨ a.toNat ≤ 0x41 ∨ a = 0x45) ∧ (b = 0x45 ∨ b = 0x46))
  let continuedIn :=
    ((a = 0x44 ∨ a = 0x45) ∧ b = 0x46) ∨ ((a = 0x46 ∨ a = 0x47) ∧ b = 0x50) ∨ (a = 0x50 ∧ b = 0x60)
  match i with
  | .reset _ => b = 0x00
  | .selAtn _ => (c.lookup = none ∧ b = 0x00) ∨ (c.lookup ≠ none ∧ b = 0x10)
  | .sel _ => (c.lookup = none ∧ b = 0x00) ∨ (c.lookup ≠ none ∧ b = 0x30)
  | .selAtnXfer _ => transferred
  | .selXfer _ => transferred
  | .transInfo _ => a = 0x20 ∧ b = 0x30
  | .negateAck _ => a = 0x50 ∧ b = 0x60
  | .msgContOut _ _ =>
    (a.toNat < 0x20 ∧ b = 0x20) ∨ (a = 0x30 ∧ (b = 0x45 ∨ b = 0x46)) ∨ ((a = 0x44 ∨ a = 0x45) ∧ b = 0x46)
  | .msgContIn _ _ => continuedIn
  | .msgContInMsg _ _ => continuedIn
  | .abort _ => False
  | .invalid _ _ => False
  | .msgUnknown _ _ _ => False
  | .msgShutdown => False
  | .msgCmd _ _ => False

/-- The byte, in state `s`, at the place the `k`-th byte of a pump reaches that starts at controller `c`
(44_dma_engines.md R264, R270, R274): host memory at `acr`, the Series I buffer round its size, host memory at the masked
`gaddr`. -/
def State.placeByte (s : State) (c : Controller) (k : Nat) : Option Byte :=
  match c.cfg.variant with
  | .cbmDmac | .cbmSdmac => s.memByte (c.acr + BitVec.ofNat 32 k)
  | .gvpS1 => Memory.find s.ctl.sram ((c.sramOff + k) % c.cfg.sramSize)
  | .gvpS2 => s.memByte ((c.gaddr + BitVec.ofNat 32 k) &&& c.cfg.addrMask)
  | .none => none

/-- The `k`-th byte a pump from `s` moves, none where it is a free value (20_memory.md R90, log 9; 44_dma_engines.md R263): the
status byte in phases 0x46 and 0x47, the next message byte in 0x50, else the target's data byte; outbound the byte at the
board's place. -/
def State.movedByte (s : State) (t : Target) (k : Nat) : Option Byte :=
  if t.direction = .toHost then
    if s.ctl.regs[0x10] = 0x46 ∨ s.ctl.regs[0x10] = 0x47 then some t.status
    else if s.ctl.regs[0x10] = 0x50 then t.messageReplies[k]?
    else Memory.find t.data (t.offset + k)
  else s.placeByte s.ctl k

/-- A store at that place is kept: something decodes the address (20_memory.md R80, log 12). -/
def State.placeKeeps (s : State) (c : Controller) (k : Nat) : Bool :=
  match c.cfg.variant with
  | .cbmDmac | .cbmSdmac => s.decodes (c.acr + BitVec.ofNat 32 k)
  | .gvpS1 => true
  | .gvpS2 => s.decodes ((c.gaddr + BitVec.ofNat 32 k) &&& c.cfg.addrMask)
  | .none => false

/-- No later byte of a pump of `n` bytes reaches the place of the `k`-th: only the Series I buffer wraps so soon. -/
abbrev Controller.placeLast (c : Controller) (n k : Nat) : Prop := c.cfg.variant = .gvpS1 → n ≤ k + c.cfg.sramSize

/-- Byte `j` of the Series I buffer is among the places of a pump's first `n` bytes. -/
abbrev Controller.sramPlace (c : Controller) (n j : Nat) : Prop :=
  c.cfg.variant = .gvpS1 ∧ ∃ k, k < n ∧ (c.sramOff + k) % c.cfg.sramSize = j

/-- The board's direction bit is the other one (44_dma_engines.md R262): CNTR bit 3 on the Commodore boards, GCNTR bit 4
on Series II; it is up for an outbound transfer. Series I and the pure-XT board have none. -/
def Controller.otherDirection (c : Controller) (outbound : Bool) : Bool :=
  match c.cfg.variant with
  | .cbmDmac | .cbmSdmac => c.cntr.getLsbD 3 != outbound
  | .gvpS2 => c.gcntr.getLsbD 4 != outbound
  | .gvpS1 | .none => false

/-- The instruction a message stands for: the chip command it carries (45_dispatch.md R306), else itself. -/
def carried (i : Instr) : Instr :=
  match i with
  | .msgCmd _ cmd => decodeCommand cmd
  | i => i

end Sys2Proof.Machine
end

