-- ==== Sys2Proof/Certificates/Slice0/Obligations.lean ====
section
/-! DEFINITION. The statements for the provers. Register numbers, codes and bits are written as the numbers of the spec
(30_encoding.md), which the spec marks as its own decisions (log 6). A statement about an instruction gives the whole next
state: what the record does not name is unchanged. -/

open Sys2Proof Sys2Proof.Machine

/-! ### Encoding (30_encoding.md) -/

/-- Decoding what the encoder writes gives the instruction back, every operand at every value, for every sentinel word a
board may have; the same through the numbering of the opcode table, which takes the default sentinel. -/
def Obligations.DecodeInvertsEncode : Prop :=
  (∀ (sentinel : Word) (i : Instr), sentinelLegal sentinel = true → i.wf sentinel = true →
    decode sentinel (encode sentinel i) = i) ∧
  ∀ i : Instr, i.wf SHUTDOWN = true → decodeTableWord (encodeTableWord i).1 (encodeTableWord i).2 = some i

/-- Every word and every byte decodes to a well-formed instruction whose encoding it is: no two words are one
instruction, none is left over, whatever the sentinel. -/
def Obligations.EncodeInvertsDecode : Prop :=
  ∀ (sentinel : Word) (k : Code), (decode sentinel k).wf sentinel = true ∧ encode sentinel (decode sentinel k) = k

/-- Words of 95_test_vectors.md (V120 to V126) and command bytes of R114, written out. -/
def Obligations.WordsOfTheSpecDecode : Prop :=
  decode 0xFFFFFFFF (.message 0x03000007) = .msgCmd 3 0x07 ∧ decode 0xFFFFFFFF (.message 0x030000A0) = .msgCmd 3 0xA0 ∧
  decode 0xFFFFFFFF (.message 0x03000100) = .msgContIn 3 0 ∧ decode 0xFFFFFFFF (.message 0x03000200) = .msgContOut 3 0 ∧
  decode 0xFFFFFFFF (.message 0x03000300) = .msgContInMsg 3 0 ∧ decode 0xFFFFFFFF (.message 0xFFFFFFFF) = .msgShutdown ∧
  decode 0xFFFFFFFF (.message 0x00000400) = .msgUnknown 0 4 0 ∧ decode 0xFFFFFFFF (.command 0x00) = .reset false ∧
  decode 0xFFFFFFFF (.command 0x83) = .negateAck true ∧ decode 0xFFFFFFFF (.command 0x87) = .sel true ∧
  decode 0xFFFFFFFF (.command 0x09) = .selXfer false ∧ decode 0xFFFFFFFF (.command 0xA0) = .transInfo true ∧
  decode 0xFFFFFFFF (.command 0x84) = .invalid true 0x04

/-! ### The worker step and the host step (45_dispatch.md, 60_exceptions.md) -/

/-- R305: where the worker's turn finds it alive and the queue not empty, the step removes the head word, executes the
instruction it decodes to, which completes, and recomputes the line. R305 gives the worker no step otherwise; in the model
its turn then passes and nothing else changes (the model's choice, log 2), so too where no controller has the number (log
24). Removing the word ends the hold of a host held at that full queue (R302). -/
def Obligations.WorkerStepRunsTheHeadWord : Prop :=
  ∀ (s : State) (slot : Nat) (ts : List Turn), s.turns = .worker slot :: ts →
    ({ s with turns := ts }.focus slot = none → step s = .next { s with turns := ts }) ∧
    ∀ s', { s with turns := ts }.focus slot = some s' →
    (s'.ctl.workerAlive = false ∨ s'.ctl.cmdq = [] → step s = .next s') ∧
    ∀ (w : Word) (ws : List Word), s'.ctl.workerAlive = true → s'.ctl.cmdq = w :: ws →
      ∃ t, exec (decode s'.ctl.cfg.shutdown (.message w)) { s' with
          ctl := { s'.ctl with cmdq := ws }, hostHeld := if s'.hostHeld = some slot then none else s'.hostHeld } = .next t ∧
        step s = .next t.recompute

/-- R306, R312: MSG_CMD runs the chip command in its low byte, completes, and its target field has no part in it. -/
def Obligations.MsgCmdRunsItsChipCommand : Prop :=
  ∀ (tid cmd : Byte) (s : State), ∃ t, exec (.msgCmd tid cmd) s = .next t ∧ exec (decodeCommand cmd) s = .next t

/-- R333: every instruction answers a next state, whatever the state. -/
def Obligations.EveryInstructionCompletes : Prop :=
  ∀ (i : Instr) (s : State), ∃ t, exec i s = .next t

/-- R12, R71 to R76, R322: a host turn performs the oldest pending access as one step. A named port: the port operation. A
page access by byte, or by word at SEL and DAT: the operation of the port `regmap` names, or 0 read and nothing written
where it names none (where a board's `regmap` names GCNTR whole, the access is of the whole register: log 38). Any other word
access becomes two byte accesses and a 32-bit access two word accesses, lower offset
first, the upper half of the value with it (log 19). A teardown enqueues the sentinel, enabled or not, and its wait ends when
the worker has exited. What a read returned is kept in the model's `hostData`, the parts of a wider access side by side
(log 15); `down` and the wait are logs 23 and 22; a host that a full queue holds has no step (R302, log 41). An access to a controller that is absent, torn down (R322), or, for a
register access, not enabled (R49) is dropped with no effect (U17, log 24). An access to the XT window, whose block is out of
scope (R4), is refused (log 20). Last, of the
default page maps (R74's suggested filling, D42): the chip mirror of the Commodore boards (R72), and WTC, ACR and GADDR with
the most significant byte at the lowest offset (R76). -/
def Obligations.HostTurnPerformsTheAccess : Prop :=
  (∀ (s s' : State) (ts : List Turn) (op : HostOp) (ops : List HostOp), s.turns = .host :: ts → s.hostHeld = none →
    s.hostOps = op :: ops → { s with turns := ts, hostOps := ops }.focus op.slot = some s' → s'.ctl.down = false →
    (∀ slot p a u d, op = .port slot p a → s'.ctl.enabled = true → s'.portAccess p a = .done u d →
      step s = .next { u with hostData := d.getD u.hostData }) ∧
    (∀ slot off w a joined, op = .page slot off w a joined → s'.ctl.enabled = true →
      let port := (s'.ctl.cfg.regmap.find? fun e => e.1 == off).map Prod.snd
      let kept (old : Word) : Word := if joined then (if w = .byte then old <<< 8 else old <<< 16) else 0
      (∀ p u d, port = some p → w = .byte ∨ (w = .word ∧ (p = .sel ∨ p = .dat)) → s'.portAccess p a = .done u d →
        step s = .next { u with hostData := match d with
          | none => u.hostData
          | some d => kept u.hostData ||| d }) ∧
      (port = none → w = .byte → step s = .next { s' with hostData := match a with
        | .read => kept s'.hostData
        | .write _ => s'.hostData }) ∧
      (w = .word → port ≠ some .sel → port ≠ some .dat → step s = .next { s' with hostOps := (match a with
        | .read => [.page slot off .byte .read joined, .page slot (off + 1) .byte .read true]
        | .write v => [.page slot off .byte (.write ((v.extractLsb' 8 8).zeroExtend 32)) joined,
            .page slot (off + 1) .byte (.write ((v.extractLsb' 0 8).zeroExtend 32)) joined]) ++ ops }) ∧
      (w = .long → step s = .next { s' with hostOps := (match a with
        | .read => [.page slot off .word .read joined, .page slot (off + 2) .word .read true]
        | .write v => [.page slot off .word (.write ((v.extractLsb' 16 16).zeroExtend 32)) joined,
            .page slot (off + 2) .word (.write ((v.extractLsb' 0 16).zeroExtend 32)) joined]) ++ ops }) ∧
      (port = some .xtWindow → w = .byte → s'.ctl.cfg.variant = .cbmDmac ∨ s'.ctl.cfg.variant = .cbmSdmac →
        step s = .refused .xtWindow)) ∧
    (∀ slot a, op = .port slot .xtWindow a → s'.ctl.enabled = true →
      s'.ctl.cfg.variant = .cbmDmac ∨ s'.ctl.cfg.variant = .cbmSdmac → step s = .refused .xtWindow) ∧
    (∀ slot, op = .teardown slot → s'.ctl.cmdq.length < s'.ctl.cfg.cmdqCap → step s = .next { s' with
      hostOps := .awaitExit slot :: ops, ctl := { s'.ctl with cmdq := s'.ctl.cmdq ++ [s'.ctl.cfg.shutdown] } }) ∧
    ∀ slot, op = .awaitExit slot →
      (s'.ctl.workerAlive = true → step s = .next { s with turns := ts }) ∧
      (s'.ctl.workerAlive = false → step s = .next { s' with ctl := { s'.ctl with down := true } })) ∧
  (∀ (s : State) (ts : List Turn), s.turns = .host :: ts → (s.hostHeld ≠ none → step s = .next { s with turns := ts }) ∧
    (s.hostHeld = none → s.hostOps = [] → step s = .next { s with turns := ts }) ∧
    ∀ (op : HostOp) (ops : List HostOp), s.hostHeld = none → s.hostOps = op :: ops →
      let dropped : State := { s with turns := ts, hostOps := ops }
      (dropped.focus op.slot = none → step s = .next dropped) ∧
      ∀ s', dropped.focus op.slot = some s' →
        s'.ctl.down = true ∨ (s'.ctl.enabled = false ∧ ((∃ slot p a, op = .port slot p a) ∨
          ∃ slot off w a joined, op = .page slot off w a joined)) →
        step s = .next dropped) ∧
  (∀ v : Variant, v = .cbmDmac ∨ v = .cbmSdmac →
    (0x90, Port.sel) ∈ defaultRegmap v ∧ (0x91, Port.sel) ∈ defaultRegmap v ∧
    (0x92, Port.dat) ∈ defaultRegmap v ∧ (0x93, Port.dat) ∈ defaultRegmap v) ∧
  let named (v : Variant) (off : Nat) : Option Port := ((defaultRegmap v).find? fun e => e.1 == off).map Prod.snd
  (∀ k : Fin 4, named .cbmDmac (0x80 + k.val) = some (.wtc k.rev) ∧ named .cbmDmac (0x84 + k.val) = some (.acr k.rev)) ∧
  ∀ (v : Variant) (k : Fin 4), v = .gvpS1 ∨ v = .gvpS2 → named v (0x70 + k.val) = some (.gaddr k.rev)

/-- R302, R322: with the command queue full, a COMMAND write, a DATA access that would end a transfer and a teardown are not
enabled, whether DAT is reached by name or through the page, by byte or by word (R72, R73). The host's turn passes, the
access stays pending, the host is held by that controller, nothing else changes (the model's form of the hold: logs 22, 41).
Whatever step is taken then, of any agent or from outside, the hold and the pending accesses stand, unless it is a step of that
controller's live worker on a queue that is not empty: only a worker step lifts the hold, and where the worker is not alive
nothing does (R302, U16). -/
def Obligations.FullQueueHoldsTheHost : Prop :=
  (∀ (s s' : State) (ts : List Turn) (op : HostOp) (ops : List HostOp) (slot : Nat),
    s.turns = .host :: ts → s.hostHeld = none → s.hostOps = op :: ops →
    { s with turns := ts, hostOps := ops }.focus slot = some s' → s'.ctl.down = false →
    s'.ctl.cmdq.length = s'.ctl.cfg.cmdqCap →
    (op = .teardown slot ∨ ∃ a, s'.ctl.enabled = true ∧
      (op = .port slot .dat a ∨ ∃ off w joined, op = .page slot off w a joined ∧ (w = .byte ∨ w = .word) ∧
        (s'.ctl.cfg.regmap.find? fun e => e.1 == off).map Prod.snd = some .dat) ∧
      ((∃ v, a = .write v ∧ s'.ctl.sasr = 0x18) ∨
        (s'.ctl.sasr = 0x19 ∧ s'.ctl.dataAvail ≠ .closed ∧
          ∃ t, s'.target = some t ∧ (s'.ctl.tc.toNat ≤ 1 ∨ t.dataLength ≤ t.offset + 1)))) →
    step s = .next { s with turns := ts, hostHeld := some slot }) ∧
  ∀ (s : State) (k : Nat), s.hostHeld = some k → ∃ t, step s = .next t ∧
    ((t.hostHeld = some k ∧ t.hostOps = s.hostOps) ∨
      (t.hostHeld = none ∧ t.hostOps = s.hostOps ∧
        (s.turns = [] ∨ ∃ ts, s.turns = .worker k :: ts) ∧
        ∃ c ∈ s.controllers, c.slot = k ∧ c.workerAlive = true ∧ c.cmdq ≠ []))

/-! ### Registers (40_register_access.md) -/

/-- R23: `TC` is the three registers, most significant first, and a write of it writes the three and nothing else. -/
def Obligations.TransferCounterIsThreeRegisters : Prop :=
  ∀ (c : Controller) (v : Count),
    c.tc.toNat = c.regs[0x12].toNat * 65536 + c.regs[0x13].toNat * 256 + c.regs[0x14].toNat ∧
    c.setTc v = { c with
      regs := ((c.regs.set 0x12 (v.extractLsb' 16 8)).set 0x13 (v.extractLsb' 8 8)).set 0x14 (v.extractLsb' 0 8) }

/-- R140, R141: a write of SEL sets the pointer to bits 4:0 and nothing else. After an access of DAT the pointer stands
on 0x1F, 0x19 and 0x18, and after a write on 0x17; otherwise it moves on by one. R72, R143, R145: the port DAT is that access
(`datRead`, `datWrite`, of which the statements below speak register by register): a read returns its byte, zero-extended, a
write takes bits 7:0 of the value, and where the access is held (R302) so is the port. -/
def Obligations.PointerIsSetAndAdvances : Prop :=
  (∀ (s : State) (v : Word),
    s.portAccess .sel (.write v) = .done { s with ctl := { s.ctl with sasr := v.extractLsb' 0 5 } } none) ∧
  (∀ (c : Controller) (afterWrite : Bool),
    c.advancePointer afterWrite = { c with
      sasr := if c.sasr = 0x1F ∨ c.sasr = 0x19 ∨ c.sasr = 0x18 ∨ (afterWrite = true ∧ c.sasr = 0x17) then c.sasr
        else BitVec.ofNat 5 ((c.sasr.toNat + 1) % 32) }) ∧
  ∀ (s : State) (v : Word),
    (s.datRead = none → s.portAccess .dat .read = .held) ∧
    (∀ u b, s.datRead = some (u, b) → s.portAccess .dat .read = .done u (some (b.zeroExtend 32))) ∧
    (s.datWrite (v.extractLsb' 0 8) = none → s.portAccess .dat (.write v) = .held) ∧
    ∀ u, s.datWrite (v.extractLsb' 0 8) = some u → s.portAccess .dat (.write v) = .done u none

/-- R150: the auxiliary status byte, bit by bit, at SEL and at DAT with the pointer at 0x1F; reading it changes
nothing. The places of the bits and what makes bits 5 and 0 up are the spec's own decisions (D5, D18; log 6). -/
def Obligations.AuxiliaryStatusIsReadWithoutEffect : Prop :=
  ∀ s : State, ∃ v : Byte,
    s.portAccess .sel .read = .done s (some (v.zeroExtend 32)) ∧
    (s.ctl.sasr = 0x1F → s.datRead = some (s, v)) ∧
    v.getLsbD 7 = s.ctl.auxInt ∧ v.getLsbD 5 = (s.ctl.busy || decide (s.ctl.dataAvail = .dma)) ∧
    v.getLsbD 0 = decide (s.ctl.dataAvail ≠ .closed) ∧ v &&& 0x5E = 0

/-- R151, R362: the read of SCSI_STATUS returns the latch, clears the pending flag and the variant's folded bit,
recomputes, and moves the pointer on; R151's pseudocode, also where no interrupt is pending (log 26). -/
def Obligations.StatusReadAcknowledges : Prop :=
  ∀ s : State, s.ctl.sasr = 0x17 →
    let r := State.recompute { s with ctl := { s.ctl with
      auxInt := false
      istr := if s.ctl.cfg.variant = .cbmDmac ∨ s.ctl.cfg.variant = .cbmSdmac then s.ctl.istr &&& 0xBF else s.ctl.istr
      gcntr := if s.ctl.cfg.variant = .gvpS2 then s.ctl.gcntr &&& 0xFFFD else s.ctl.gcntr } }
    s.datRead = some ({ r with ctl := { r.ctl with sasr := 0x18 } }, s.ctl.regs[0x17])

/-- R146, R147: writes of SCSI_STATUS and AUXILIARY_STATUS change nothing at all; a write of OWN_ID is masked by the chip
revision (the masks are the spec's decision D8) and moves the pointer to 1. -/
def Obligations.ProtectedRegisterWrites : Prop :=
  ∀ (s : State) (v : Byte),
    (s.ctl.sasr = 0x17 ∨ s.ctl.sasr = 0x1F → s.datWrite v = some s) ∧
    (s.ctl.sasr = 0x00 →
      let m : Byte := match s.ctl.cfg.chipRev with
        | .wd33c93 => 0xD7
        | .wd33c93a => 0xDF
        | .wd33c93b => 0xFF
      s.datWrite v = some { s with ctl := { s.ctl with regs := s.ctl.regs.set 0x00 (v &&& m), sasr := 0x01 } })

/-- R143, R145, R154: every other register is plain storage; the pointer moves on, but not on COMMAND. -/
def Obligations.PlainRegistersReadAndWrite : Prop :=
  ∀ (s : State) (v : Byte),
    (s.ctl.sasr ∉ ([0x00, 0x17, 0x18, 0x19, 0x1F] : List RegNum) →
      s.datWrite v = some { s with ctl := { s.ctl with
        regs := s.ctl.regs.set s.ctl.sasr.toNat v s.ctl.sasr.isLt, sasr := s.ctl.sasr + 1 } }) ∧
    (s.ctl.sasr ∉ ([0x17, 0x19, 0x1F] : List RegNum) →
      s.datRead = some ({ s with ctl := { s.ctl with
        sasr := if s.ctl.sasr = 0x18 then 0x18 else s.ctl.sasr + 1 } }, s.ctl.regs[s.ctl.sasr.toNat]'s.ctl.sasr.isLt))

/-- R148, R300, R301: a write of COMMAND stores the byte, sets `busy` and enqueues `tid ++ 0 ++ cmd`, `tid` the SCSI ID of
DESTINATION_ID where a target is attached there and else 0; the pointer stands. -/
def Obligations.CommandWriteEnqueues : Prop :=
  ∀ (s : State) (v : Byte), s.ctl.sasr = 0x18 → s.ctl.cmdq.length < s.ctl.cfg.cmdqCap →
    let id := (s.ctl.regs[0x15].extractLsb' 0 3).toFin
    let tid : Byte := if s.ctl.targets[id.val] = none then 0 else BitVec.ofNat 8 id.val
    s.datWrite v = some { s with ctl := { s.ctl with
      regs := s.ctl.regs.set 0x18 v, busy := true, cmdq := s.ctl.cmdq ++ [tid ++ (0 : Half) ++ v] } }

/-- R152, R153, R408: with no transfer open or no target, a DATA read returns 0 and changes nothing, and a write stores
the byte only. -/
def Obligations.ClosedDataPortMovesNothing : Prop :=
  ∀ (s : State) (v : Byte), s.ctl.sasr = 0x19 → s.ctl.dataAvail = .closed ∨ s.target = none →
    s.datRead = some (s, 0) ∧
    s.datWrite v = some { s with ctl := { s.ctl with regs := s.ctl.regs.set 0x19 v } }

/-- R152, R90: a DATA read with a transfer open takes one byte of the target, mirrors it, counts, and either keeps the
transfer open as PIO or closes it and enqueues message type 3 (phase 0x46 and above) or 1. The byte is the status byte in
phases 0x46 and 0x47, the next message byte in 0x50, else the data byte at the offset; what the target does not give is a
free value (which byte in which phase: log 9). -/
def Obligations.DataReadMovesOneByte : Prop :=
  ∀ (s : State) (i : Fin 8) (t : Target), s.ctl.sasr = 0x19 → s.ctl.curTarget = some i →
    s.ctl.targets[i.val] = some t → s.ctl.dataAvail ≠ .closed →
    let p := s.ctl.regs[0x10]
    ∃ (b : Byte) (n : Nat) (ms : List Byte),
    (p = 0x46 ∨ p = 0x47 → b = t.status ∧ n = s.draws ∧ ms = t.messageReplies) ∧
    (p = 0x50 → (∀ x xs, t.messageReplies = x :: xs → b = x ∧ n = s.draws ∧ ms = xs) ∧ (t.messageReplies = [] → ms = [])) ∧
    (p ≠ 0x46 → p ≠ 0x47 → p ≠ 0x50 →
      ms = t.messageReplies ∧ ∀ x, Memory.find t.data t.offset = some x → b = x ∧ n = s.draws) ∧
    let moved := { s.ctl.setTc (if s.ctl.tc = 0 then 0 else s.ctl.tc - 1) with
      targets := s.ctl.targets.set i.val (some { t with offset := t.offset + 1, messageReplies := ms })
      scratch := if s.ctl.scratchOff < s.ctl.cfg.scratchSize then Memory.put s.ctl.scratch s.ctl.scratchOff b
        else s.ctl.scratch
      scratchOff := s.ctl.scratchOff + 1 }
    let closes := t.dataLength ≤ t.offset + 1 ∨ s.ctl.tc.toNat ≤ 1
    (¬closes → s.datRead = some
      ({ s with draws := n, ctl := { moved with regs := moved.regs.set 0x19 b, dataAvail := .pio } }, b)) ∧
    (closes → s.ctl.cmdq.length < s.ctl.cfg.cmdqCap → s.datRead = some
      ({ s with draws := n, ctl := { moved with
          regs := moved.regs.set 0x19 b
          dataAvail := .closed
          cmdq := s.ctl.cmdq ++
            [BitVec.ofNat 8 i.val ++ (if 0x46 ≤ p.toNat then (3 : Half) else 1) ++ (0 : Byte)] } }, b))

/-- R153: a DATA write with a transfer open gives the byte to the target, mirrors it, counts, and either keeps the transfer
open as PIO or closes it and enqueues message type 2. A command byte past the 16th is dropped (log 10). -/
def Obligations.DataWriteMovesOneByte : Prop :=
  ∀ (s : State) (i : Fin 8) (t : Target) (v : Byte), s.ctl.sasr = 0x19 → s.ctl.curTarget = some i →
    s.ctl.targets[i.val] = some t → s.ctl.dataAvail ≠ .closed →
    let t' := if t.direction = .command then { t with cmd := t.cmd.setIfInBounds t.offset v, offset := t.offset + 1 }
      else { t with data := Memory.put t.data t.offset v, offset := t.offset + 1 }
    let moved := { s.ctl.setTc (if s.ctl.tc = 0 then 0 else s.ctl.tc - 1) with
      targets := s.ctl.targets.set i.val (some t')
      scratch := if s.ctl.scratchOff < s.ctl.cfg.scratchSize then Memory.put s.ctl.scratch s.ctl.scratchOff v
        else s.ctl.scratch
      scratchOff := s.ctl.scratchOff + 1 }
    let closes := t.dataLength ≤ t.offset + 1 ∨ s.ctl.tc.toNat ≤ 1
    (¬closes → s.datWrite v = some
      { s with ctl := { moved with regs := moved.regs.set 0x19 v, dataAvail := .pio } }) ∧
    (closes → s.ctl.cmdq.length < s.ctl.cfg.cmdqCap → s.datWrite v = some
      { s with ctl := { moved with
        regs := moved.regs.set 0x19 v
        dataAvail := .closed
        cmdq := s.ctl.cmdq ++ [BitVec.ofNat 8 i.val ++ (2 : Half) ++ (0 : Byte)] } })

/-- R153 (the document's round-trip property): the bytes written at DATA reach the target in order, as data or, in direction
2, as command bytes (a command byte past the 16th is dropped, log 10). The transfer stays open before the last and closes
exactly on it, when the counter is zero or the target has its length, whichever comes first (`pumpBytes`). -/
def Obligations.PioWriteDeliversEveryByteInOrder : Prop :=
  ∀ (s : State) (i : Fin 8) (t : Target) (vs : List Byte), s.ctl.sasr = 0x19 → s.ctl.curTarget = some i →
    s.ctl.targets[i.val] = some t → s.ctl.dataAvail ≠ .closed → vs.length = pumpBytes s.ctl t →
    s.ctl.cmdq.length < s.ctl.cfg.cmdqCap →
    (∀ ws, ws <+: vs → ws ≠ vs →
      ∃ u, s.datWrites ws = some u ∧ u.ctl.dataAvail ≠ .closed ∧ u.ctl.cmdq = s.ctl.cmdq) ∧
    ∃ u t', s.datWrites vs = some u ∧ u.target = some t' ∧ t'.offset = t.offset + vs.length ∧
      (t.direction ≠ .command → ∀ k, k < vs.length → Memory.find t'.data (t.offset + k) = vs[k]?) ∧
      (t.direction = .command → ∀ k, k < vs.length → t.offset + k < 16 → t'.cmd[t.offset + k]? = vs[k]?) ∧
      u.ctl.dataAvail = .closed ∧ u.ctl.tc.toNat = s.ctl.tc.toNat - vs.length ∧
      u.ctl.cmdq = s.ctl.cmdq ++ [BitVec.ofNat 8 i.val ++ (2 : Half) ++ (0 : Byte)]

/-! ### The delay queue (41_delay_queue.md) -/

/-- R170, R172: a post writes the slot at the index, occupied or not, with a countdown of 1 for a delay of 0, and moves
the index on. -/
def Obligations.PostWritesTheSlotAtTheIndex : Prop :=
  ∀ (c : Controller) (status : Byte) (delay : Nat),
    c.post status delay = { c with
      queue := c.queue.set c.qIndex { status := status, count := if delay = 0 then 1 else delay }
      qIndex := (c.qIndex + 1) % c.cfg.qcap }

/-- R174, R175, R176: a poll does nothing while the interrupt is pending; else every occupied slot counts down by one, and
the last slot, in slot order, that stood at 1 leaves its status in the latch, with the interrupt pending and `busy`
cleared. -/
def Obligations.PollCountsDownAndDelivers : Prop :=
  ∀ c : Controller,
    (c.auxInt = true → c.pollOnce = c) ∧
    (c.auxInt = false →
      let q := c.queue.map fun x => { x with count := x.count - 1 }
      match (c.queue.filter fun x => decide (x.count = 1)).getLast? with
      | none => c.pollOnce = { c with queue := q }
      | some x => c.pollOnce = { c with queue := q, regs := c.regs.set 0x17 x.status, auxInt := true, busy := false })

/-- R177: a status posted to a queue with no other pending is delivered at exactly the poll its delay names, and stays
latched from then on. -/
def Obligations.PostedStatusArrivesOnTime : Prop :=
  ∀ (c : Controller) (status : Byte) (delay k : Nat), c.auxInt = false → (∀ x ∈ c.queue, x.count = 0) →
    c.qIndex < c.queue.length →
    let d := Controller.pollOnce^[k] (c.post status delay)
    (k < max 1 delay → d.auxInt = false ∧ d.regs = c.regs) ∧
    (max 1 delay ≤ k → d.auxInt = true ∧ d.busy = false ∧ d.regs = c.regs.set 0x17 status)

/-! ### Chip commands (42_chip_commands.md) -/

/-- R190, R191: RESET. The line is recomputed in the command, as R190 has it, and not only at the next delivery, as R55's
table has it (log 25). -/
def Obligations.ResetCommandClearsTheChip : Prop :=
  ∀ (sbt : Bool) (s : State),
    exec (.reset sbt) s = .next (State.recompute { s with ctl := { s.ctl with
      regs := Vector.ofFn fun i : Fin 32 => if (1 ≤ i.val ∧ i.val ≤ 0x15) ∨ i.val = 0x18 then 0 else s.ctl.regs[i.val]
      sasr := 0
      selected := false
      curTarget := none
      auxInt := false
      dataAvail := .closed
      queue := (s.ctl.queue.map fun x => { x with count := 0 }).set 0
        { status := if s.ctl.regs[0x00].getLsbD 3 then 0x01 else 0x00, count := max 1 s.ctl.cfg.tReset }
      qIndex := 1 % s.ctl.cfg.qcap } })

/-- R193: ABORT changes no state at all. -/
def Obligations.AbortChangesNothing : Prop :=
  ∀ (sbt : Bool) (s : State), exec (.abort sbt) s = .next s

/-- R197, R198, R199: SEL_ATN and SEL of a target that is there. -/
def Obligations.SelectOfAPresentTarget : Prop :=
  ∀ (sbt : Bool) (s : State) (t : Target),
    let id := (s.ctl.regs[0x15].extractLsb' 0 3).toFin
    id ≠ 7 → s.ctl.targets[id.val] = some t →
    let selected (phase status : Byte) : State := { s with ctl := { s.ctl with
      regs := s.ctl.regs.set 0x10 phase
      curTarget := some id
      targets := s.ctl.targets.set id.val (some { t with offset := 0 })
      selected := true
      queue := (s.ctl.queue.set s.ctl.qIndex { status := 0x11, count := max 1 s.ctl.cfg.tSel1 }).set
        ((s.ctl.qIndex + 1) % s.ctl.cfg.qcap) { status := status, count := max 1 s.ctl.cfg.tSel2 }
      qIndex := ((s.ctl.qIndex + 1) % s.ctl.cfg.qcap + 1) % s.ctl.cfg.qcap } }
    exec (.selAtn sbt) s = .next (selected 0x10 0x8E) ∧ exec (.sel sbt) s = .next (selected 0x30 0x8A)

/-- R195, R196, R199, R207: selecting ID 7 or an ID with no target posts the time-out status, with each of the four
commands that select. -/
def Obligations.SelectOfAMissingTargetTimesOut : Prop :=
  ∀ (sbt : Bool) (s : State),
    let id := (s.ctl.regs[0x15].extractLsb' 0 3).toFin
    id = 7 ∨ s.ctl.targets[id.val] = none →
    let c := { s.ctl with
      regs := s.ctl.regs.set 0x10 0x00
      curTarget := none
      queue := s.ctl.queue.set s.ctl.qIndex { status := 0x42, count := max 1 s.ctl.cfg.tTimeout }
      qIndex := (s.ctl.qIndex + 1) % s.ctl.cfg.qcap }
    exec (.sel sbt) s = .next { s with ctl := c } ∧ exec (.selAtn sbt) s = .next { s with ctl := c } ∧
    exec (.selXfer sbt) s = .next { s with ctl := { c with dataAvail := .closed } } ∧
    exec (.selAtnXfer sbt) s = .next { s with ctl := { c with dataAvail := .closed } }

/-- R209, R262: a Select-and-Transfer that reaches the data phase with data to move, as a new command (V60 to V62), resumed
with the command received (0x31 to 0x41) or in the data phase (0x45), stops in this order of tests: the counter is zero
(0x48, 0x49), the DMA engine is not usable (0x88, 0x89), the board's direction bit (CNTR bit 3, GCNTR bit 4) is the other one
(0x48, 0x49). Nothing moves; the target stands as steps A and B leave it (`readyForData`; its answers are logs 8, 11). -/
def Obligations.SelXferStopsBeforeTheData : Prop :=
  ∀ (sbt : Bool) (s : State) (t : Target),
    let id := (s.ctl.regs[0x15].extractLsb' 0 3).toFin
    let r := (s.readyForData t).1
    id ≠ 7 → s.ctl.targets[id.val] = some t →
    s.ctl.selected = false ∨ s.ctl.regs[0x10].toNat ≤ 0x41 ∨ s.ctl.regs[0x10] = 0x45 →
    r.direction.isOut = true ∨ (r.direction = .toHost ∧ 0 < r.dataLength) →
    ∃ m, s.ctl.mirrors r m ∧
    let stopped (group : Byte) : State := { s with draws := (s.readyForData t).2, ctl := { s.ctl with
      dataAvail := .closed
      curTarget := some id
      selected := true
      targets := s.ctl.targets.set id.val (some r)
      regs := s.ctl.regs.set 0x10 0x45
      scratch := m
      scratchOff := 0
      queue := s.ctl.queue.set s.ctl.qIndex
        { status := group ||| (if r.direction = .toHost then 0x01 else 0x00), count := 1 }
      qIndex := (s.ctl.qIndex + 1) % s.ctl.cfg.qcap } }
    (s.ctl.tc = 0 →
      exec (.selXfer sbt) s = .next (stopped 0x48) ∧ exec (.selAtnXfer sbt) s = .next (stopped 0x48)) ∧
    (s.ctl.tc ≠ 0 → s.ctl.canDma = false →
      exec (.selXfer sbt) s = .next (stopped 0x88) ∧ exec (.selAtnXfer sbt) s = .next (stopped 0x88)) ∧
    (s.ctl.tc ≠ 0 → s.ctl.canDma = true → s.ctl.otherDirection (decide (r.direction ≠ .toHost)) = true →
      exec (.selXfer sbt) s = .next (stopped 0x48) ∧ exec (.selAtnXfer sbt) s = .next (stopped 0x48))

/-- R214, R215, R216: Select-and-Transfer resumed at the status phase, or in a phase past the cascade's tests, completes:
the status byte goes to TARGET_LUN in the first case only, and the ending disconnect is posted unless EDI is set. -/
def Obligations.SelXferResumedLateCompletes : Prop :=
  ∀ (sbt : Bool) (s : State) (t : Target),
    let id := (s.ctl.regs[0x15].extractLsb' 0 3).toFin
    let p := s.ctl.regs[0x10].toNat
    id ≠ 7 → s.ctl.targets[id.val] = some t → s.ctl.selected = true → 0x42 ≤ p → p ≠ 0x45 →
    let first := s.ctl.queue.set s.ctl.qIndex { status := 0x16, count := 2 }
    let next := (s.ctl.qIndex + 1) % s.ctl.cfg.qcap
    let done : State := { s with ctl := { s.ctl with
      dataAvail := .closed
      curTarget := some id
      selected := false
      regs := (if p = 0x46 then s.ctl.regs.set 0x0F t.status else s.ctl.regs).set 0x10 0x60
      queue := if s.ctl.regs[0x01].getLsbD 3 then first else first.set next { status := 0x85, count := 4 }
      qIndex := if s.ctl.regs[0x01].getLsbD 3 then next else (next + 1) % s.ctl.cfg.qcap } }
    exec (.selXfer sbt) s = .next done ∧ exec (.selAtnXfer sbt) s = .next done

/-- R207 to R209, R214 to R216: a Select-and-Transfer that moves no data (the target reports none, or an inbound command of
no bytes) runs to its end, as a new command, or resumed with the command received (0x31 to 0x41) or in the data phase (0x45).
The target stands as steps A and B leave it (`readyForData`: the CDB registers, the analysis, the execution; its answers are
logs 8, 11), its status byte arrives in TARGET_LUN, no byte of memory changes, the ending disconnect is posted unless EDI is
set. -/
def Obligations.SelXferRunsACommandWithoutData : Prop :=
  ∀ (sbt : Bool) (s : State) (t : Target),
    let id := (s.ctl.regs[0x15].extractLsb' 0 3).toFin
    let r := (s.readyForData t).1
    let first := s.ctl.queue.set s.ctl.qIndex { status := 0x16, count := 2 }
    let next := (s.ctl.qIndex + 1) % s.ctl.cfg.qcap
    id ≠ 7 → s.ctl.targets[id.val] = some t →
    s.ctl.selected = false ∨ s.ctl.regs[0x10].toNat ≤ 0x41 ∨ s.ctl.regs[0x10] = 0x45 →
    r.direction = .nothing ∨ (r.direction = .toHost ∧ r.dataLength = 0) →
    ∃ m, s.ctl.mirrors r m ∧ ∀ i, i = Instr.selXfer sbt ∨ i = Instr.selAtnXfer sbt →
      exec i s = .next { s with draws := (s.readyForData t).2, ctl := { s.ctl with
        dataAvail := .closed
        curTarget := some id
        selected := false
        targets := s.ctl.targets.set id.val (some r)
        regs := (s.ctl.regs.set 0x0F r.status).set 0x10 0x60
        scratch := m
        scratchOff := 0
        queue := if s.ctl.regs[0x01].getLsbD 3 then first else first.set next { status := 0x85, count := 4 }
        qIndex := if s.ctl.regs[0x01].getLsbD 3 then next else (next + 1) % s.ctl.cfg.qcap } }

/-- R207 to R210, R214 to R216: a Select-and-Transfer with data, on a board whose DMA engine is usable and whose direction bit
agrees, as a new command, or resumed with the command received (0x31 to 0x41) or in the data phase (0x45). The target enters
as steps A and B leave it (`readyForData`). `n` bytes move from its offset on: to the counter's zero or the target's length,
one at least. Inbound they arrive at the board's places, outbound the target has them. Then: data left, a stop in 0x45 with
0x49 or 0x48, an outbound command not executed; the target at its end before the counter, a stop in 0x46 with 0x4B; both at
their end, completion, with the status in TARGET_LUN. An outbound command executes after its data. The whole next state is
tied to the pump (PumpMovesAsManyBytesAsItMust, PumpMovesTheDataInOrder): `entered` is the state the pump starts from, `v` the
one it leaves, and beside the execution only the phase, TARGET_LUN, `selected` and the queue change after it. The target's
answers are logs 8, 11, a kept store is log 12, command bytes are log 10. -/
def Obligations.SelXferMovesTheData : Prop :=
  ∀ (sbt : Bool) (s : State) (t : Target),
    let id := (s.ctl.regs[0x15].extractLsb' 0 3).toFin
    let r := (s.readyForData t).1
    let inbound := r.direction = .toHost
    let n := pumpBytes s.ctl r
    s.ctl.ok → id ≠ 7 → s.ctl.targets[id.val] = some t →
    s.ctl.selected = false ∨ s.ctl.regs[0x10].toNat ≤ 0x41 ∨ s.ctl.regs[0x10] = 0x45 →
    s.ctl.cfg.variant ≠ .none → s.ctl.canDma = true → s.ctl.otherDirection (decide ¬inbound) = false →
    r.direction.isOut = true ∨ (inbound ∧ 0 < r.dataLength) → s.ctl.tc ≠ 0 →
    ∀ i, i = Instr.selXfer sbt ∨ i = Instr.selAtnXfer sbt →
    ∃ m u t', s.ctl.mirrors r m ∧ exec i s = .next u ∧ u.ctl.targets[id.val] = some t' ∧ u.ctl.curTarget = some id ∧
      (let entered : State := { s with draws := (s.readyForData t).2, ctl := { s.ctl with
        dataAvail := .closed, curTarget := some id, selected := true, targets := s.ctl.targets.set id.val (some r)
        regs := s.ctl.regs.set 0x10 0x45, scratch := m, scratchOff := 0 } }
      let v := entered.pump.1
      ∃ t₂, v.target = some t₂ ∧
      let w : State := if inbound then v else { v with
        draws := t₂.drawsExecuted v.draws
        ctl := { v.ctl with targets := v.ctl.targets.set id.val (some (t₂.executed v.draws)) } }
      let posted (x : State) (phase status : Byte) : State := { x with ctl := { x.ctl with
        regs := x.ctl.regs.set 0x10 phase
        queue := s.ctl.queue.set s.ctl.qIndex { status := status, count := 1 }
        qIndex := (s.ctl.qIndex + 1) % s.ctl.cfg.qcap } }
      (r.offset + n < r.dataLength → u = posted v 0x45 (if inbound then 0x49 else 0x48)) ∧
      (n < s.ctl.tc.toNat → u = posted w 0x46 0x4B) ∧
      (r.dataLength ≤ r.offset + n → s.ctl.tc.toNat ≤ n → u = { w with ctl := { w.ctl with
        selected := false
        regs := (w.ctl.regs.set 0x0F t'.status).set 0x10 0x60
        queue := u.ctl.queue
        qIndex := u.ctl.qIndex } })) ∧
      u.ctl.dataAvail = .closed ∧ t'.offset = r.offset + n ∧ t'.direction = r.direction ∧ t'.dataLength = r.dataLength ∧
      u.ctl.tc.toNat = s.ctl.tc.toNat - n ∧ u.ctl.scratchOff = n ∧
      (inbound → t'.status = r.status ∧ ∀ k b, k < n → Memory.find r.data (r.offset + k) = some b → s.ctl.placeLast n k →
        s.placeKeeps s.ctl k = true → u.placeByte s.ctl k = some b) ∧
      (¬inbound → u.mem = s.mem ∧ u.ctl.sram = s.ctl.sram ∧
        (∀ k b, k < n → s.placeByte s.ctl k = some b →
          (r.direction = .toDevice → Memory.find t'.data (r.offset + k) = some b) ∧
          (r.direction = .command → r.offset + k < 16 → t'.cmd[r.offset + k]? = some b)) ∧
        (r.offset + n < r.dataLength → t'.status = r.status) ∧
        ∀ e, r.dataLength ≤ r.offset + n → t.executeReplies.head? = some e → t'.status = e.status) ∧
      let stopped (status : Byte) :=
        u.ctl.selected = true ∧ u.ctl.regs[0x0F] = s.ctl.regs[0x0F] ∧
        u.ctl.queue = s.ctl.queue.set s.ctl.qIndex { status := status, count := 1 } ∧
        u.ctl.qIndex = (s.ctl.qIndex + 1) % s.ctl.cfg.qcap
      let first := s.ctl.queue.set s.ctl.qIndex { status := 0x16, count := 2 }
      let next := (s.ctl.qIndex + 1) % s.ctl.cfg.qcap
      (r.offset + n < r.dataLength → u.ctl.regs[0x10] = 0x45 ∧ stopped (if inbound then 0x49 else 0x48)) ∧
      (n < s.ctl.tc.toNat → u.ctl.regs[0x10] = 0x46 ∧ stopped 0x4B) ∧
      (r.dataLength ≤ r.offset + n → s.ctl.tc.toNat ≤ n →
        u.ctl.regs[0x10] = 0x60 ∧ u.ctl.regs[0x0F] = t'.status ∧ u.ctl.selected = false ∧
        u.ctl.queue = (if s.ctl.regs[0x01].getLsbD 3 then first else first.set next { status := 0x85, count := 4 }) ∧
        u.ctl.qIndex = (if s.ctl.regs[0x01].getLsbD 3 then next else (next + 1) % s.ctl.cfg.qcap))

/-- R207 to R215, the frame: a Select-and-Transfer writes no chip register but TARGET_LUN, COMMAND_PHASE and the counter.
It writes no byte of host memory and of the Series I buffer but those at the places of the bytes its inbound pump moves: none
where no pump runs (no such target, a phase past the data, no inbound data, or one of R209's stops). It leaves the pointer, the
pending flag, `busy`, the board's control registers, the command queue and every other target alone, closes the transfer,
and of every other controller changes nothing but the folded interrupt bits. The line is as before, or as a recompute makes it
(R266). A sound state (`ok`) is assumed, which every step keeps. -/
def Obligations.SelXferLeavesTheRestAlone : Prop :=
  ∀ (sbt : Bool) (s u : State) (i : Instr), s.ctl.ok → i = .selXfer sbt ∨ i = .selAtnXfer sbt → exec i s = .next u →
    let id := (s.ctl.regs[0x15].extractLsb' 0 3).toFin
    let n := match s.ctl.targets[id.val] with
      | none => 0
      | some t =>
        let r := (s.readyForData t).1
        if id ≠ 7 ∧ (s.ctl.selected = false ∨ s.ctl.regs[0x10].toNat ≤ 0x41 ∨ s.ctl.regs[0x10] = 0x45) ∧
            r.direction = .toHost ∧ 0 < r.dataLength ∧ s.ctl.tc ≠ 0 ∧ s.ctl.canDma = true ∧
            s.ctl.otherDirection false = false then pumpBytes s.ctl r
        else 0
    (∀ k : Fin 32, k.val ∉ [0x0F, 0x10, 0x12, 0x13, 0x14] → u.ctl.regs[k.val] = s.ctl.regs[k.val]) ∧
    (∀ a : Word, (∀ k, k < n → s.ctl.pumpAddress k ≠ some a) → u.memByte a = s.memByte a) ∧
    (∀ j, ¬s.ctl.sramPlace n j → Memory.find u.ctl.sram j = Memory.find s.ctl.sram j) ∧
    (∀ k : Fin 8, some k ≠ u.ctl.curTarget → u.ctl.targets[k.val] = s.ctl.targets[k.val]) ∧
    ((u.others = s.others ∧ u.irqLine = s.irqLine) ∨
      (u.others = s.others.map Controller.foldLatch ∧ u.irqLine = u.recompute.irqLine)) ∧
    u.ctl.dataAvail = .closed ∧ u.ctl.down = s.ctl.down ∧ u.ctl.slot = s.ctl.slot ∧ u.ctl.sasr = s.ctl.sasr ∧ u.ctl.auxInt = s.ctl.auxInt ∧ u.ctl.busy = s.ctl.busy ∧ u.ctl.cmdq = s.ctl.cmdq ∧
    u.ctl.workerAlive = s.ctl.workerAlive ∧ u.ctl.cntr = s.ctl.cntr ∧ u.ctl.gcntr = s.ctl.gcntr ∧
    u.ctl.dawr = s.ctl.dawr ∧ u.ctl.gbank = s.ctl.gbank ∧ u.ctl.dmaActive = s.ctl.dmaActive ∧
    u.ctl.istr ||| 0x60 = s.ctl.istr ||| 0x60 ∧ u.ctl.xtIrq = s.ctl.xtIrq ∧ u.ctl.enabled = s.ctl.enabled ∧
    u.ctl.configured = s.ctl.configured ∧ u.ctl.cfg = s.ctl.cfg ∧ u.memMap = s.memMap

/-- R220 (first line), R239, R246: with no target TRANS_INFO and MSG_CONT_OUT change nothing; nor does MSG_CONT_OUT in a
phase no arm names. -/
def Obligations.NothingToTransferChangesNothing : Prop :=
  ∀ (sbt : Bool) (tid cmd : Byte) (s : State),
    (s.target = none → exec (.transInfo sbt) s = .next s ∧ exec (.msgContOut tid cmd) s = .next s) ∧
    (0x20 ≤ s.ctl.regs[0x10].toNat → s.ctl.regs[0x10] ≠ 0x30 → s.ctl.regs[0x10] ≠ 0x44 → s.ctl.regs[0x10] ≠ 0x45 →
      exec (.msgContOut tid cmd) s = .next s)

/-- R220, R221, R222: Transfer Info, for every phase. -/
def Obligations.TransferInfoOpensThePhase : Prop :=
  ∀ (sbt : Bool) (s : State) (i : Fin 8) (t : Target), s.ctl.curTarget = some i → s.ctl.targets[i.val] = some t →
    let p := s.ctl.regs[0x10]
    let n : Count := if sbt = true ∨ s.ctl.tc = 0 then 1 else s.ctl.tc
    let counted := { s.ctl.setTc n with scratchOff := 0 }
    let opened (c : Controller) (t : Target) : State := { s with ctl := { c with
      targets := s.ctl.targets.set i.val (some t), dataAvail := if s.ctl.canDma then .dma else .pio } }
    (p.toNat < 0x20 → exec (.transInfo sbt) s =
      .next (opened counted { t with direction := .toDevice, dataLength := n.toNat })) ∧
    (p = 0x30 → exec (.transInfo sbt) s =
      .next (opened counted { t with direction := .command, dataLength := n.toNat, cmdLength := n.toNat })) ∧
    (p = 0x20 → exec (.transInfo sbt) s =
      .next (opened { counted with regs := counted.regs.set 0x10 0x30 }
        { t with direction := .command, dataLength := n.toNat, cmdLength := n.toNat, status := 0 })) ∧
    (p = 0x44 ∨ p = 0x45 → exec (.transInfo sbt) s = .next (opened counted t)) ∧
    (p = 0x46 ∨ p = 0x47 ∨ p = 0x50 → exec (.transInfo sbt) s =
      .next (opened counted { t with direction := .toHost, dataLength := 1 })) ∧
    (0x20 < p.toNat → p ∉ ([0x30, 0x44, 0x45, 0x46, 0x47, 0x50] : List Byte) → exec (.transInfo sbt) s =
      .next { s with ctl := { counted with dataAvail := .closed } })

/-- R225, R248: Negate-Acknowledge in message-in holds there while message bytes are pending, and disconnects after the
last; outside message-in, or with no target, it changes nothing. -/
def Obligations.NegateAckHoldsOrDisconnects : Prop :=
  ∀ (sbt : Bool) (s : State),
    (s.target = none ∨ s.ctl.regs[0x10] ≠ 0x50 → exec (.negateAck sbt) s = .next s) ∧
    ∀ (i : Fin 8) (t : Target), s.ctl.curTarget = some i → s.ctl.targets[i.val] = some t → s.ctl.regs[0x10] = 0x50 →
    (t.offset < t.dataLength → exec (.negateAck sbt) s = .next { s with ctl := { s.ctl with
      scratchOff := 0
      queue := s.ctl.queue.set s.ctl.qIndex { status := 0x1F, count := max 1 s.ctl.cfg.tRetryIn }
      qIndex := (s.ctl.qIndex + 1) % s.ctl.cfg.qcap } }) ∧
    (t.dataLength ≤ t.offset → exec (.negateAck sbt) s = .next { s with ctl := { s.ctl with
      regs := (((s.ctl.regs.set 0x10 0x60).set 0x12 0).set 0x13 0).set 0x14 0
      selected := false
      busy := false
      targets := s.ctl.targets.set i.val (some { t with offset := 0 })
      scratchOff := 0
      queue := s.ctl.queue.set s.ctl.qIndex { status := 0x85, count := 1 }
      qIndex := (s.ctl.qIndex + 1) % s.ctl.cfg.qcap } })

/-- R228: an unrecognised command posts INVALID and changes nothing else. -/
def Obligations.UnrecognisedCommandPostsInvalid : Prop :=
  ∀ (sbt : Bool) (op : BitVec 7) (s : State), exec (.invalid sbt op) s = .next { s with ctl := { s.ctl with
    queue := s.ctl.queue.set s.ctl.qIndex { status := 0x40, count := max 1 s.ctl.cfg.tInvalid }
    qIndex := (s.ctl.qIndex + 1) % s.ctl.cfg.qcap } }

/-! ### The callbacks' messages (43_transfer_callbacks.md, 45_dispatch.md) -/

/-- R240, R247: MSG_CONT_OUT after a message-out forwards the first mirrored byte as the identify message; where nothing
has been mirrored the byte is a free value (log 13). -/
def Obligations.ContOutForwardsTheIdentifyMessage : Prop :=
  ∀ (tid cmd : Byte) (s : State) (i : Fin 8) (t : Target), s.ctl.curTarget = some i →
    s.ctl.targets[i.val] = some t → s.ctl.regs[0x10].toNat < 0x20 →
    ∃ (b : Byte) (n : Nat), (∀ x, Memory.find s.ctl.scratch 0 = some x → b = x ∧ n = s.draws) ∧
    exec (.msgContOut tid cmd) s = .next { s with draws := n, ctl := { s.ctl with
      regs := (((s.ctl.regs.set 0x10 0x20).set 0x12 0).set 0x13 0).set 0x14 0
      targets := s.ctl.targets.set i.val (some { t with identify := b, status := 0, offset := 0 })
      busy := false
      scratchOff := 0
      queue := s.ctl.queue.set s.ctl.qIndex { status := 0x1A, count := 1 }
      qIndex := (s.ctl.qIndex + 1) % s.ctl.cfg.qcap } }

/-- R241, R247: MSG_CONT_OUT after the command bytes. An outbound command waits for its data; every other one is executed
now. What the target answers, and what an execution does to the target's data, are logs 8 and 11. -/
def Obligations.ContOutStartsTheCommand : Prop :=
  ∀ (tid cmd : Byte) (s : State) (i : Fin 8) (t : Target), s.ctl.curTarget = some i → s.ctl.targets[i.val] = some t →
    s.ctl.regs[0x10] = 0x30 →
    let a := s.analyzeAnswer t
    let n := s.drawsAnalyzed t
    let e := t.executeAnswer n
    let advanced (draws : Nat) (phase status : Byte) (t : Target) : State := { s with draws := draws, ctl := { s.ctl with
      regs := (((s.ctl.regs.set 0x10 phase).set 0x12 0).set 0x13 0).set 0x14 0
      targets := s.ctl.targets.set i.val (some t)
      busy := false
      scratchOff := 0
      queue := s.ctl.queue.set s.ctl.qIndex { status := status, count := 1 }
      qIndex := (s.ctl.qIndex + 1) % s.ctl.cfg.qcap } }
    let analyzed := { t with
      cmdLength := a.cmdLength.val, dataLength := a.dataLength, analyzeReplies := t.analyzeReplies.tail, offset := 0 }
    let executed := { analyzed with status := e.status, executeReplies := t.executeReplies.tail }
    (a.direction = .toDevice → 0 < a.dataLength → exec (.msgContOut tid cmd) s =
      .next (advanced n 0x45 0x18 { analyzed with direction := .toDevice })) ∧
    (a.direction = .toHost → e.data ≠ [] → exec (.msgContOut tid cmd) s =
      .next (advanced (t.drawsExecuted n) 0x45 0x19 { executed with
        direction := .toHost, data := Memory.putAll [] 0 e.data, dataLength := e.data.length })) ∧
    (a.direction = .toHost → e.data = [] → exec (.msgContOut tid cmd) s =
      .next (advanced (t.drawsExecuted n) 0x46 0x1B { executed with direction := .toHost, data := [], dataLength := 0 })) ∧
    (a.direction = .nothing → exec (.msgContOut tid cmd) s =
      .next (advanced (t.drawsExecuted n) 0x46 0x1B { executed with direction := .nothing })) ∧
    (a.direction = .toDevice → a.dataLength = 0 → exec (.msgContOut tid cmd) s =
      .next (advanced (t.drawsExecuted n) 0x46 0x1B { executed with direction := .toDevice }))

/-- R244, R245, R247: MSG_CONT_OUT in the data phase asks again while data is missing; after the last byte it runs an
outbound command (logs 8, 11) and enters the status phase. -/
def Obligations.ContOutRetriesOrEndsTheData : Prop :=
  ∀ (tid cmd : Byte) (s : State) (i : Fin 8) (t : Target), s.ctl.curTarget = some i → s.ctl.targets[i.val] = some t →
    s.ctl.regs[0x10] = 0x44 ∨ s.ctl.regs[0x10] = 0x45 →
    let ended (draws : Nat) (t : Target) : State := { s with draws := draws, ctl := { s.ctl with
      regs := (((s.ctl.regs.set 0x10 0x46).set 0x12 0).set 0x13 0).set 0x14 0
      targets := s.ctl.targets.set i.val (some { t with offset := 0 })
      busy := false
      scratchOff := 0
      queue := s.ctl.queue.set s.ctl.qIndex { status := 0x1B, count := 1 }
      qIndex := (s.ctl.qIndex + 1) % s.ctl.cfg.qcap } }
    (t.offset < t.dataLength → exec (.msgContOut tid cmd) s = .next { s with ctl := { s.ctl with
      queue := s.ctl.queue.set s.ctl.qIndex { status := 0x18, count := max 1 s.ctl.cfg.tRetryOut }
      qIndex := (s.ctl.qIndex + 1) % s.ctl.cfg.qcap } }) ∧
    (t.dataLength ≤ t.offset → t.direction = .toHost ∨ t.direction = .nothing →
      exec (.msgContOut tid cmd) s = .next (ended s.draws t)) ∧
    (t.dataLength ≤ t.offset → t.direction = .toDevice ∨ t.direction = .command →
      exec (.msgContOut tid cmd) s = .next (ended (t.drawsExecuted s.draws)
        { t with status := (t.executeAnswer s.draws).status, executeReplies := t.executeReplies.tail }))

/-- R248, R307, R309: MSG_CONT_IN and MSG_CONT_IN_MSG do the same in every phase. -/
def Obligations.ContInGoesThroughThePhases : Prop :=
  ∀ (tid cmd : Byte) (s : State) (j : Instr), j = .msgContIn tid cmd ∨ j = .msgContInMsg tid cmd →
    (s.target = none → exec j s = .next s) ∧
    ∀ (i : Fin 8) (t : Target), s.ctl.curTarget = some i → s.ctl.targets[i.val] = some t →
    let p := s.ctl.regs[0x10]
    let retried (status : Byte) : State := { s with ctl := { s.ctl with
      scratchOff := 0
      queue := s.ctl.queue.set s.ctl.qIndex { status := status, count := max 1 s.ctl.cfg.tRetryIn }
      qIndex := (s.ctl.qIndex + 1) % s.ctl.cfg.qcap } }
    let advanced (phase status : Byte) (selected : Bool) : State := { s with ctl := { s.ctl with
      regs := (((s.ctl.regs.set 0x10 phase).set 0x12 0).set 0x13 0).set 0x14 0
      targets := s.ctl.targets.set i.val (some { t with offset := 0 })
      selected := selected
      busy := false
      scratchOff := 0
      queue := s.ctl.queue.set s.ctl.qIndex { status := status, count := 1 }
      qIndex := (s.ctl.qIndex + 1) % s.ctl.cfg.qcap } }
    (p = 0x44 ∨ p = 0x45 → t.offset < t.dataLength →
      exec j s = .next (retried (if t.direction = .toHost then 0x19 else 0x18))) ∧
    (p = 0x44 ∨ p = 0x45 → t.dataLength ≤ t.offset →
      exec j s = .next (advanced 0x46 (if s.ctl.tc = 0 then 0x1B else 0x4B) s.ctl.selected)) ∧
    (p = 0x46 ∨ p = 0x47 → exec j s = .next (advanced 0x50 0x1F s.ctl.selected)) ∧
    (p = 0x50 → t.offset < t.dataLength → exec j s = .next (retried 0x1F)) ∧
    (p = 0x50 → t.dataLength ≤ t.offset → exec j s = .next (advanced 0x60 0x85 false)) ∧
    (p ∉ ([0x44, 0x45, 0x46, 0x47, 0x50] : List Byte) → exec j s = .next { s with ctl := { s.ctl with scratchOff := 0 } })

/-- R310, R311: an unknown message changes nothing; the sentinel ends the worker and changes nothing else. -/
def Obligations.UnknownAndShutdownMessages : Prop :=
  ∀ (tid cmd : Byte) (mtype : Half) (s : State),
    exec (.msgUnknown tid mtype cmd) s = .next s ∧
    exec .msgShutdown s = .next { s with ctl := { s.ctl with workerAlive := false } }

/-! ### The transfer counter and the DMA engines (43_transfer_callbacks.md, 44_dma_engines.md) -/

/-- R230, R231: the counter counts down to zero and stays there; a call answers true exactly when it leaves zero. -/
def Obligations.CounterReachesZeroOnce : Prop :=
  ∀ (c : Controller) (k : Nat),
    let d := (fun c => (Controller.decTc c).1)^[k] c
    d.tc.toNat = c.tc.toNat - k ∧ (d.decTc.2 = true ↔ c.tc.toNat ≤ k + 1)

/-- R260: DMA is usable exactly when CONTROL bits 7:5 are one of the board's DMA modes; the default modes by variant (the
spec's decision D7). -/
def Obligations.DmaModesByVariant : Prop :=
  (∀ c : Controller, c.canDma = true ↔ BitVec.ofNat 3 (c.regs[0x01].toNat / 32) ∈ c.cfg.dmaModes) ∧
  ∀ v : Variant, ∀ m : BitVec 3, m ∈ (defaultParams v).dmaModes ↔
    match v with
    | .cbmDmac | .cbmSdmac | .gvpS2 => m = 4 ∨ m = 1
    | .gvpS1 => m = 2
    | .none => False

/-- R263, R275, R276: a pump with no target, no direction, or on a GVP Series II board with the other direction set,
refuses and changes nothing; so does one on the pure-XT board, which has no pump (the model's reading of R5, log 27). -/
def Obligations.PumpRefusesWithoutEffect : Prop :=
  ∀ s : State,
    (s.target = none → s.pump = (s, false)) ∧
    (s.ctl.cfg.variant = .none → s.pump = (s, false)) ∧
    (∀ t, s.target = some t → t.direction = .nothing → s.pump = (s, false)) ∧
    (∀ t, s.target = some t → s.ctl.cfg.variant = .gvpS2 → (s.ctl.gcntr.getLsbD 4 ≠ decide (t.direction.isOut)) →
      s.pump = (s, false))

/-- R263, R264, R266, R270, R271, R274, R277: a pump moves bytes until the counter is zero or the target's data ends,
whichever comes first, one at least; counter, offset, scratch offset and the variant's address all move by that many. The
target's prepared message bytes are used up in phase 0x50 only (log 9). On the
Commodore boards with TCEN set each completed word counts `wtc` down (a word is two bytes: the spec's decision D25), and its
fall to zero raises the end-of-process bit and recomputes the line. The frame is the record: nothing else changes but host
memory, the scratch mirror, the Series I buffer and the target's bytes, of which PumpMovesTheDataInOrder speaks. -/
def Obligations.PumpMovesAsManyBytesAsItMust : Prop :=
  ∀ (s : State) (i : Fin 8) (t : Target), s.ctl.ok → s.ctl.curTarget = some i → s.ctl.targets[i.val] = some t →
    t.direction ≠ .nothing → s.ctl.cfg.variant ≠ .none →
    (s.ctl.cfg.variant = .gvpS2 → s.ctl.gcntr.getLsbD 4 = t.direction.isOut) →
    let c := s.ctl
    let n := pumpBytes c t
    let commodore := c.cfg.variant = .cbmDmac ∨ c.cfg.variant = .cbmSdmac
    let words := if commodore ∧ c.cntr.getLsbD 7 = true then (c.acr.toNat % 2 + n) / 2 else 0
    let ended := c.wtc ≠ 0 ∧ c.wtc.toNat ≤ words
    ∃ (t' : Target) (mem scratch sram : Memory) (draws : Nat),
      (t.direction = .toHost → t' = { t with
        offset := t.offset + n
        messageReplies := if c.regs[0x10] = 0x50 then t.messageReplies.drop n else t.messageReplies }) ∧
      (t.direction = .toDevice → t' = { t with offset := t.offset + n, data := t'.data }) ∧
      (t.direction = .command → t' = { t with offset := t.offset + n, cmd := t'.cmd }) ∧
      let moved : State := { s with mem := mem, draws := draws, ctl := { c.setTc (BitVec.ofNat 24 (c.tc.toNat - n)) with
        targets := c.targets.set i.val (some t')
        scratch := scratch
        scratchOff := c.scratchOff + n
        acr := if commodore then c.acr + BitVec.ofNat 32 n else c.acr
        wtc := c.wtc - BitVec.ofNat 32 (min words c.wtc.toNat)
        istr := if ended then c.istr ||| 0x20 else c.istr
        gaddr := if c.cfg.variant = .gvpS2 ∨ (c.cfg.variant = .gvpS1 ∧ t.direction ≠ .toHost)
          then (c.gaddr + BitVec.ofNat 32 n) &&& c.cfg.addrMask else c.gaddr
        sram := sram
        sramOff := if c.cfg.variant = .gvpS1 then (c.sramOff + n) % c.cfg.sramSize else c.sramOff } }
      s.pump = (if ended then moved.recompute else moved, true)

/-- R263, R264, R270, R274, R28, R90: the bytes a pump moves, in order, in every phase. Which they are: inbound the status byte
in phases 0x46 and 0x47, the next message bytes in 0x50 and else the target's data (log 9), outbound those at the board's
places; a byte nothing gives is a free value. Inbound they go to the board's places: ascending addresses of host memory from
ACR, or from GADDR under its mask, or the Series I buffer round its size. Outbound they go to the target, as data or as command
bytes (log 10). Each is mirrored into `scratch` too, dropped past its size. Elsewhere memory, buffer, mirror and the target's
data are unchanged, memory and buffer wholly by an outbound pump. Kept stores are log 12. -/
def Obligations.PumpMovesTheDataInOrder : Prop :=
  ∀ (s : State) (t : Target), s.ctl.ok → s.target = some t → t.direction ≠ .nothing → s.ctl.cfg.variant ≠ .none →
    (s.ctl.cfg.variant = .gvpS2 → s.ctl.gcntr.getLsbD 4 = t.direction.isOut) →
    let n := pumpBytes s.ctl t
    let u := s.pump.1
    ∃ bs : List Byte, bs.length = n ∧ (∀ k b, k < n → s.movedByte t k = some b → bs[k]? = some b) ∧
    (∀ j, Memory.find u.ctl.scratch j =
      if s.ctl.scratchOff ≤ j ∧ j < s.ctl.scratchOff + n ∧ j < s.ctl.cfg.scratchSize then bs[j - s.ctl.scratchOff]?
      else Memory.find s.ctl.scratch j) ∧
    (t.direction = .toHost →
      (∀ k, k < n → s.ctl.placeLast n k → s.placeKeeps s.ctl k = true → u.placeByte s.ctl k = bs[k]?) ∧
      (∀ a : Word, (∀ k, k < n → s.ctl.pumpAddress k ≠ some a) → u.memByte a = s.memByte a) ∧
      ∀ j, ¬s.ctl.sramPlace n j → Memory.find u.ctl.sram j = Memory.find s.ctl.sram j) ∧
    (t.direction ≠ .toHost → u.mem = s.mem ∧ u.ctl.sram = s.ctl.sram ∧ ∃ t', u.target = some t' ∧
      (t.direction = .toDevice → ∀ j, Memory.find t'.data j =
        if t.offset ≤ j ∧ j < t.offset + n then bs[j - t.offset]? else Memory.find t.data j) ∧
      (t.direction = .command → ∀ j : Fin 16, some t'.cmd[j.val] =
        if t.offset ≤ j.val ∧ j.val < t.offset + n then bs[j.val - t.offset]? else some t.cmd[j.val]))

/-- R266: the word counter counts a completed word while TCEN is set; its fall to zero raises the end-of-process bit and
recomputes the line. That a word is two bytes is the spec's own decision (D25; log 6). -/
def Obligations.WordCounterRaisesEndOfProcess : Prop :=
  ∀ s : State,
    let counts := s.ctl.cntr.getLsbD 7 = true ∧ s.ctl.acr.toNat % 2 = 0 ∧ s.ctl.wtc ≠ 0
    (¬counts → s.wtcStep = s) ∧
    (counts → s.ctl.wtc ≠ 1 → s.wtcStep = { s with ctl := { s.ctl with wtc := s.ctl.wtc - 1 } }) ∧
    (counts → s.ctl.wtc = 1 →
      s.wtcStep = State.recompute { s with ctl := { s.ctl with wtc := 0, istr := s.ctl.istr ||| 0x20 } })

/-- R280, R282 to R288: the ports of the Commodore controllers; byte `k` of WTC and ACR is bits 8k+7 to 8k and the other
three stand; the strobes act on reads as on writes, and what a read of one returns is a free value (log 16). A named port of
the GVP boards is none of theirs: a read returns 0, a write changes nothing (the model's choice, log 17). -/
def Obligations.CommodorePorts : Prop :=
  ∀ (s : State) (v : Word) (k : Fin 4), s.ctl.cfg.variant = .cbmDmac ∨ s.ctl.cfg.variant = .cbmSdmac →
    let strobe (p : Port) (u : State) : Prop :=
      s.portAccess p (.write v) = .done u none ∧
      ∃ b : Byte, s.portAccess p .read = .done { u with draws := u.draws + 1 } (some (b.zeroExtend 32))
    s.portAccess .cntr .read = .done s (some (s.ctl.cntr.zeroExtend 32)) ∧
    s.portAccess .cntr (.write v) =
      .done (State.recompute { s with ctl := { s.ctl with cntr := v.extractLsb' 0 8 } }) none ∧
    s.portAccess .dawr .read = .done s (some (s.ctl.dawr.zeroExtend 32)) ∧
    s.portAccess .dawr (.write v) = .done { s with ctl := { s.ctl with dawr := v.extractLsb' 0 8 } } none ∧
    strobe .stDma { s with ctl := { s.ctl with dmaActive := .started } } ∧
    strobe .spDma { s with ctl := { s.ctl with dmaActive := .stopped } } ∧
    strobe .cint (State.recompute { s with ctl := { s.ctl with istr := s.ctl.istr &&& 0x9F } }) ∧
    strobe .flush s ∧
    (∀ p : Port, (p = .gcntr ∨ p = .gbank ∨ p = .gStDma ∨ p = .gSpDma ∨ p = .sramOff ∨ p = .sramWin ∨
        (∃ j, p = .gcntrByte j) ∨ ∃ j, p = .gaddr j) →
      s.portAccess p .read = .done s (some 0) ∧ s.portAccess p (.write v) = .done s none) ∧
    (∃ w : Word,
      s.portAccess (.wtc k) (.write v) = .done { s with ctl := { s.ctl with wtc := w } } none ∧
      ∀ j : Fin 4, w.extractLsb' (8 * j.val) 8 =
        if j = k then v.extractLsb' 0 8 else s.ctl.wtc.extractLsb' (8 * j.val) 8) ∧
    (∃ a : Word,
      s.portAccess (.acr k) (.write v) = .done { s with ctl := { s.ctl with acr := a } } none ∧
      ∀ j : Fin 4, a.extractLsb' (8 * j.val) 8 =
        if j = k then v.extractLsb' 0 8 else s.ctl.acr.extractLsb' (8 * j.val) 8) ∧
    s.portAccess (.wtc k) .read = .done s (some ((s.ctl.wtc.extractLsb' (8 * k.val) 8).zeroExtend 32)) ∧
    s.portAccess (.acr k) .read = .done s (some ((s.ctl.acr.extractLsb' (8 * k.val) 8).zeroExtend 32))

/-- R281: an ISTR read recomputes, then shows the stored bits with INT_P and FE_FLG computed, and clears nothing. R281
says ISTR is not writable: that a write changes nothing is the model's reading (log 17). That `legacyDmac` rules FE_FLG on
the SuperDMAC too is the model's choice (R5 gives the flag to CBM_DMAC, log 39). -/
def Obligations.IstrReadShowsTheInterrupt : Prop :=
  ∀ s : State, s.ctl.cfg.variant = .cbmDmac ∨ s.ctl.cfg.variant = .cbmSdmac →
    let i := s.recompute.ctl.istr
    let p : Byte := if (i.getLsbD 6 = true ∨ i.getLsbD 5 = true) ∧ s.ctl.cntr.getLsbD 4 = true then 0x10 else 0x00
    let f : Byte := if s.ctl.cfg.legacyDmac then 0x00 else 0x01
    s.portAccess .istr .read = .done s.recompute (some ((i ||| p ||| f).zeroExtend 32)) ∧
    ∀ v, s.portAccess .istr (.write v) = .done s none

/-- R289 to R293: the ports of the GVP controllers. A GCNTR write keeps G_PEND and recomputes, a read recomputes first, by
the whole register and by each of its bytes (log 18); the
strobes act on reads as on writes and recompute, and what a read of one returns is a free value (log 16); GADDR is kept
masked; GBANK is stored; the Series I buffer window reads and writes at its offset and moves on, and SRAMOFF takes one byte
(log 37). The model's choice (log 17): a read of SRAMOFF returns 0, and a named port the board does not have, one of the
Commodore boards, a Series I port of Series II, any but SEL and DAT on the pure-XT board, reads 0 and ignores writes. -/
def Obligations.GvpPorts : Prop :=
  (∀ (s : State) (v : Word) (p : Port),
    (s.ctl.cfg.variant = .gvpS1 ∨ s.ctl.cfg.variant = .gvpS2) ∧ (p = .cntr ∨ p = .istr ∨ p = .dawr ∨ p = .stDma ∨
        p = .spDma ∨ p = .cint ∨ p = .flush ∨ p = .xtWindow ∨ (∃ j, p = .wtc j) ∨ ∃ j, p = .acr j) ∨
      s.ctl.cfg.variant = .gvpS2 ∧ (p = .sramOff ∨ p = .sramWin) ∨ s.ctl.cfg.variant = .none ∧ p ≠ .sel ∧ p ≠ .dat →
    s.portAccess p .read = .done s (some 0) ∧ s.portAccess p (.write v) = .done s none) ∧
  ∀ (s : State) (k : Fin 4) (v : Word), s.ctl.cfg.variant = .gvpS1 ∨ s.ctl.cfg.variant = .gvpS2 →
    let b : Byte := v.extractLsb' 0 8
    let strobe (p : Port) (u : State) : Prop :=
      s.portAccess p (.write v) = .done u none ∧
      ∃ b : Byte, s.portAccess p .read = .done { u with draws := u.draws + 1 } (some (b.zeroExtend 32))
    s.portAccess .gcntr (.write v) = .done (State.recompute { s with ctl := { s.ctl with
      gcntr := (v.extractLsb' 0 16 &&& 0xFFFD) ||| (s.ctl.gcntr &&& 0x0002) } }) none ∧
    s.portAccess .gcntr .read = .done s.recompute (some (s.recompute.ctl.gcntr.zeroExtend 32)) ∧
    s.portAccess (.gcntrByte 1) (.write v) = .done (State.recompute { s with ctl := { s.ctl with
      gcntr := b ++ s.ctl.gcntr.extractLsb' 0 8 } }) none ∧
    s.portAccess (.gcntrByte 0) (.write v) = .done (State.recompute { s with ctl := { s.ctl with
      gcntr := s.ctl.gcntr.extractLsb' 8 8 ++ ((b &&& 0xFD) ||| (s.ctl.gcntr.extractLsb' 0 8 &&& 0x02)) } }) none ∧
    (∀ j : Fin 2, s.portAccess (.gcntrByte j) .read =
      .done s.recompute (some ((s.recompute.ctl.gcntr.extractLsb' (8 * j.val) 8).zeroExtend 32))) ∧
    strobe .gStDma (State.recompute { s with ctl := { s.ctl with dmaActive := .started } }) ∧
    strobe .gSpDma (State.recompute { s with ctl := { s.ctl with dmaActive := .stopped } }) ∧
    (∃ g : Word,
      s.portAccess (.gaddr k) (.write v) =
        .done { s with ctl := { s.ctl with gaddr := g &&& s.ctl.cfg.addrMask } } none ∧
      ∀ j : Fin 4, g.extractLsb' (8 * j.val) 8 = if j = k then b else s.ctl.gaddr.extractLsb' (8 * j.val) 8) ∧
    s.portAccess (.gaddr k) .read = .done s (some ((s.ctl.gaddr.extractLsb' (8 * k.val) 8).zeroExtend 32)) ∧
    s.portAccess .gbank (.write v) = .done { s with ctl := { s.ctl with gbank := b } } none ∧
    s.portAccess .gbank .read = .done s (some (s.ctl.gbank.zeroExtend 32)) ∧
    (s.ctl.cfg.variant = .gvpS1 →
      let next := (s.ctl.sramOff + 1) % s.ctl.cfg.sramSize
      s.portAccess .sramOff (.write v) =
        .done { s with ctl := { s.ctl with sramOff := b.toNat % s.ctl.cfg.sramSize } } none ∧
      s.portAccess .sramOff .read = .done s (some 0) ∧
      s.portAccess .sramWin (.write v) =
        .done { s with ctl := { s.ctl with sram := Memory.put s.ctl.sram s.ctl.sramOff b, sramOff := next } } none ∧
      ∃ (x : Byte) (n : Nat), (∀ y, Memory.find s.ctl.sram s.ctl.sramOff = some y → x = y ∧ n = s.draws) ∧
        s.portAccess .sramWin .read =
          .done { s with draws := n, ctl := { s.ctl with sramOff := next } } (some (x.zeroExtend 32)))

/-! ### The tick and the interrupt line (45_dispatch.md, 60_exceptions.md) -/

/-- R315, R316, R322, R410: the step that takes a tick's turn ticks the controller named; nothing happens where there is none
(log 24) or it has been torn down (log 23). A tick with no transfer open for the DMA engine, or the engine stopped, polls the delay queue and
recomputes the line, no more. With one open but no target or no direction it also closes the transfer. On a GVP Series II
board with the other direction set, and on the pure-XT board, which has no pump (log 27), it moves nothing and leaves the
transfer open, tick after tick. -/
def Obligations.TickWithNothingToDrive : Prop :=
  (∀ (s : State) (slot : Nat) (ts : List Turn), s.turns = .tick slot :: ts →
    ({ s with turns := ts }.focus slot = none → step s = .next { s with turns := ts }) ∧
    ∀ s', { s with turns := ts }.focus slot = some s' →
      (s'.ctl.down = true → step s = .next { s with turns := ts }) ∧ (s'.ctl.down = false → step s = .next s'.tick)) ∧
  ∀ s : State,
    (s.ctl.dataAvail ≠ .dma ∨ s.ctl.dmaActive = .stopped → s.tick = State.recompute { s with ctl := s.ctl.pollOnce }) ∧
    (s.ctl.dataAvail = .dma → s.ctl.dmaActive ≠ .stopped →
      (s.target = none ∨ (∃ t, s.target = some t ∧ t.direction = .nothing) →
        s.tick = State.recompute { s with ctl := Controller.pollOnce { s.ctl with dataAvail := .closed } }) ∧
      ∀ t, s.target = some t → t.direction ≠ .nothing →
        (s.ctl.cfg.variant = .gvpS2 ∧ s.ctl.gcntr.getLsbD 4 ≠ t.direction.isOut) ∨ s.ctl.cfg.variant = .none →
        s.tick = State.recompute { s with ctl := s.ctl.pollOnce } ∧
        s.tick.ctl.dataAvail = .dma ∧ s.tick.target = some t ∧ s.tick.ctl.tc = s.ctl.tc ∧ s.tick.ctl.gaddr = s.ctl.gaddr)

/-- R316: a tick drives an open DMA transfer, in any phase: the pump runs, the transfer closes, the callback of its direction
runs (the meaning of MSG_CONT_IN or MSG_CONT_OUT), then the poll and the recompute. Host memory and the Series I buffer stand
as the pump leaves them. Where no interrupt is pending and no other status is due, R240, R241, R244, R245, R248 and R174 give
what the host sees: the sent message, the sent command (which of three ends: logs 8, 11), the data with its length reached
(0x1B, or 0x4B where an inbound one ended with the counter above zero; an outbound command executes), the status byte, the
last message byte each move the phase on and their status is in SCSI_STATUS in the same tick. With data or message bytes left
the phase stays and the retry status has one tick less to wait, delivered where it had one. In any other phase the callback
does nothing. -/
def Obligations.TickDrivesAnOpenTransfer : Prop :=
  ∀ (s : State) (t : Target), s.ctl.ok → s.ctl.dataAvail = .dma → s.ctl.dmaActive ≠ .stopped → s.target = some t →
    t.direction ≠ .nothing → s.ctl.cfg.variant ≠ .none →
    (s.ctl.cfg.variant = .gvpS2 → s.ctl.gcntr.getLsbD 4 = decide (t.direction ≠ .toHost)) →
    let n := pumpBytes s.ctl t
    let inbound := t.direction = .toHost
    let p := s.ctl.regs[0x10]
    let u := s.tick
    (∃ w, exec (if inbound then .msgContIn 0 0 else .msgContOut 0 0)
        { s.pump.1 with ctl := { s.pump.1.ctl with dataAvail := .closed } } = .next w ∧
      u = State.recompute { w with ctl := w.ctl.pollOnce }) ∧
    u.mem = s.pump.1.mem ∧ u.ctl.sram = s.pump.1.ctl.sram ∧ u.ctl.dataAvail = .closed ∧
    (s.ctl.auxInt = false → (∀ x ∈ s.ctl.queue, x.count ≠ 1) →
      let arrives (phase status : Byte) : Prop := u.ctl.regs[0x10] = phase ∧ u.ctl.auxInt = true ∧ u.ctl.busy = false ∧
        u.ctl.regs[0x17] = status ∧ u.ctl.tc = 0 ∧ ∃ t', u.target = some t' ∧ t'.offset = 0
      let stays : Prop := u.ctl.regs[0x10] = p ∧ u.ctl.tc.toNat = s.ctl.tc.toNat - n ∧
        ∃ t', u.target = some t' ∧ t'.offset = t.offset + n
      let silent : Prop := u.ctl.auxInt = false ∧ u.ctl.busy = s.ctl.busy ∧ u.ctl.regs[0x17] = s.ctl.regs[0x17]
      let retries (status : Byte) (delay : Nat) : Prop := stays ∧
        u.ctl.queue[s.ctl.qIndex]? = some { status := status, count := delay - 1 } ∧
        (delay ≤ 1 → u.ctl.auxInt = true ∧ u.ctl.busy = false ∧ u.ctl.regs[0x17] = status) ∧ (1 < delay → silent)
      (¬inbound → p.toNat < 0x20 → arrives 0x20 0x1A) ∧
      (¬inbound → p = 0x30 → arrives 0x45 0x18 ∨ arrives 0x45 0x19 ∨ arrives 0x46 0x1B) ∧
      (p = 0x44 ∨ p = 0x45 → t.dataLength ≤ t.offset + n →
        arrives 0x46 (if inbound ∧ n < s.ctl.tc.toNat then 0x4B else 0x1B) ∧
        ∀ r t', ¬inbound → t.executeReplies.head? = some r → u.target = some t' → t'.status = r.status) ∧
      (p = 0x44 ∨ p = 0x45 → t.offset + n < t.dataLength →
        (inbound → retries 0x19 s.ctl.cfg.tRetryIn) ∧ (¬inbound → retries 0x18 s.ctl.cfg.tRetryOut)) ∧
      (inbound → p = 0x46 ∨ p = 0x47 → arrives 0x50 0x1F) ∧
      (inbound → p = 0x50 → t.dataLength ≤ t.offset + n → arrives 0x60 0x85 ∧ u.ctl.selected = false) ∧
      (inbound → p = 0x50 → t.offset + n < t.dataLength → retries 0x1F s.ctl.cfg.tRetryIn) ∧
      ((inbound ∧ p ∉ ([0x44, 0x45, 0x46, 0x47, 0x50] : List Byte)) ∨
        (¬inbound ∧ 0x20 ≤ p.toNat ∧ p ∉ ([0x30, 0x44, 0x45] : List Byte)) → stays ∧ silent))

/-- R350 to R354: what a recompute does: the requests of every controller are folded into its latch, and the line is the OR
of the enabled controllers' predicates, each variant's requests and enables written out; nothing else changes. That the
end-of-process bit counts in the Commodore predicate is the spec's own inference (90_conflicts.md C4, decision D28). -/
def Obligations.LineIsTheOrOfThePredicates : Prop :=
  ∀ s : State,
    let folded (c : Controller) : Controller := { c with
      istr := if (c.cfg.variant = .cbmDmac ∨ c.cfg.variant = .cbmSdmac) ∧ (c.auxInt = true ∨ c.xtIrq = true)
        then c.istr ||| 0x40 else c.istr
      gcntr := if c.cfg.variant = .gvpS2 ∧ c.auxInt = true then c.gcntr ||| 0x0002 else c.gcntr }
    s.recompute = { s with
      ctl := folded s.ctl
      others := s.others.map folded
      irqLine := s.controllers.any fun c => c.enabled &&
        match c.cfg.variant with
        | .cbmDmac | .cbmSdmac =>
          c.cntr.getLsbD 4 && (c.auxInt || c.xtIrq || c.istr.getLsbD 6 || c.istr.getLsbD 5)
        | .gvpS1 => decide (c.dmaActive ≠ .stopped) && c.auxInt
        | .gvpS2 => (c.auxInt || c.gcntr.getLsbD 1) && c.gcntr.getLsbD 3
        | .none => false }

/-! ### Reset and lifecycle (70_reset_and_hazards.md, 45_dispatch.md) -/

/-- R320, R55, R381: a controller as constructed. `enabled` and `configured` are the autoconfiguration's (log 21). -/
def Obligations.ConstructionClearsEverything : Prop :=
  ∀ (slot : Nat) (cfg : Params) (ids : List (Fin 8)),
    let c := Controller.construct slot cfg (attach ids)
    (∀ i : Fin 32, c.regs[i.val] = 0) ∧ c.sasr = 0 ∧ c.selected = false ∧ c.busy = false ∧ c.dataAvail = .closed ∧
    c.auxInt = false ∧ c.curTarget = none ∧ c.queue.length = cfg.qcap ∧ (∀ x ∈ c.queue, x.count = 0 ∧ x.status = 0) ∧
    c.qIndex = 0 ∧ c.scratchOff = 0 ∧ c.istr = 0 ∧ c.cntr = 0 ∧ c.wtc = 0 ∧ c.acr = 0 ∧ c.dawr = 0 ∧ c.gcntr = 0 ∧
    c.gaddr = 0 ∧ c.gbank = 0 ∧ c.sramOff = 0 ∧ c.dmaActive = .stopped ∧ c.xtIrq = false ∧ c.cmdq = [] ∧ c.workerAlive = true ∧
    c.pred = false ∧ ∀ i : Fin 8, (c.targets[i.val]).isSome = decide (i ∈ ids)

/-- R321, R190: board reset. The command queue and the worker stand, as R321 says; R55's table has the worker alive in that
column, and the model follows R321 (log 25). Then the step that takes an event's turn: a board reset, a change of `xtIrq` or
`dmaActive` by the XT block (R44, R45, R355), of the flags of R49 (log 21), or an answer of the target layer (log 8) happens at
the controller named, nothing where there is none (log 24) or it has been torn down (R322); construction (R320) adds a controller with
a number not in use and legal parameters (log 34), however many boards there are (the model's choice, log 40); a write of host memory by another master writes where something decodes
the address (R80; plain memory behind the decode map: log 12). -/
def Obligations.BoardResetAndTheOtherEvents : Prop :=
  (∀ s : State, s.boardReset = State.recompute { s with ctl := { s.ctl with
    regs := Vector.ofFn fun i : Fin 32 => if (1 ≤ i.val ∧ i.val ≤ 0x15) ∨ i.val = 0x18 then 0 else s.ctl.regs[i.val]
    sasr := 0, selected := false, busy := false, curTarget := none, auxInt := false, dataAvail := .closed
    queue := s.ctl.queue.map fun x => { x with count := 0 }
    qIndex := 0, scratchOff := 0, istr := 0, cntr := 0, wtc := 0, acr := 0, dawr := 0, gcntr := 0, gaddr := 0
    gbank := 0, sramOff := 0, dmaActive := .stopped } }) ∧
  ∀ (s : State) (e : External) (ts : List Turn), s.turns = .external e :: ts →
    let rest : State := { s with turns := ts }
    let happens (slot : Nat) (f : State → State) : Prop :=
      (rest.focus slot = none → step s = .next rest) ∧ ∀ s', rest.focus slot = some s' →
        (s'.ctl.down = true → step s = .next rest) ∧ (s'.ctl.down = false → step s = .next (f s'))
    (∀ slot, e = .boardReset slot → happens slot State.boardReset) ∧
    (∀ slot level, e = .xtRequest slot level →
      happens slot fun s' => State.recompute { s' with ctl := { s'.ctl with xtIrq := level } }) ∧
    (∀ slot v, e = .xtDma slot v →
      happens slot fun s' => State.recompute { s' with ctl := { s'.ctl with dmaActive := v } }) ∧
    (∀ slot en conf, e = .autoconfig slot en conf →
      happens slot fun s' => State.recompute { s' with ctl := { s'.ctl with enabled := en, configured := conf } }) ∧
    (∀ slot cfg ids, e = .construct slot cfg ids →
      ((∀ c ∈ s.controllers, c.slot ≠ slot) → paramsLegal cfg = true →
        step s = .next { rest with others := s.others ++ [Controller.construct slot cfg (attach ids)] }) ∧
      ((∃ c ∈ s.controllers, c.slot = slot) ∨ paramsLegal cfg = false → step s = .next rest)) ∧
    (∀ a v, e = .memoryWrite a v →
      step s = .next { rest with mem := if s.decodes a then Memory.put s.mem a.toNat v else s.mem }) ∧
    (∀ slot (id : Fin 8) r, e = .targetReply slot id r →
      happens slot fun s' => { s' with ctl := { s'.ctl with targets := match s'.ctl.targets[id.val] with
        | none => s'.ctl.targets
        | some t => s'.ctl.targets.set id.val (some (match r with
          | .analyze x => { t with analyzeReplies := t.analyzeReplies ++ [x] }
          | .execute x => { t with executeReplies := t.executeReplies ++ [x] }
          | .message b => { t with messageReplies := t.messageReplies ++ [b] })) } })

/-! ### Whole-machine rules -/

/-- R5, R373: an instruction leaves the parameters of its board alone, and of every other controller changes nothing but
the folded interrupt bits; it does not touch the schedule, the pending host accesses or a hold. R6, R373: a turn for controller `slot`
acts on that controller (`focus`; numbers and places are the model's own, log 31): there is none exactly where no controller
has the number; else the one with the number comes to act, the controllers stay the same ones, and the rest of the machine
stands. -/
def Obligations.InstructionsKeepToTheirController : Prop :=
  (∀ (i : Instr) (s t : State), exec i s = .next t →
    t.ctl.cfg = s.ctl.cfg ∧ t.ctl.slot = s.ctl.slot ∧
    (t.others = s.others ∨ t.others = s.others.map Controller.foldLatch) ∧
    t.memMap = s.memMap ∧ t.turns = s.turns ∧ t.hostOps = s.hostOps ∧ t.hostHeld = s.hostHeld ∧ t.hostData = s.hostData) ∧
  ∀ (s : State) (slot : Nat),
    (s.focus slot = none ↔ ∀ c ∈ s.controllers, c.slot ≠ slot) ∧
    ∀ s', s.focus slot = some s' → s'.ctl.slot = slot ∧ s'.controllers.Perm s.controllers ∧
      s' = { s with ctl := s'.ctl, others := s'.others } ∧ (s.ctl.slot = slot → s' = s)

/-- R263, R264, R270, R274, the frame of memory: no instruction but the two that run a pump, and MSG_CMD carrying one of
them, changes a byte of host memory or of the GVP Series I buffer. -/
def Obligations.OnlyPumpsChangeMemory : Prop :=
  ∀ (i : Instr) (s t : State), exec i s = .next t → (∀ sbt, carried i ≠ .selXfer sbt ∧ carried i ≠ .selAtnXfer sbt) →
    t.ctl.sram = s.ctl.sram ∧ ∀ a : Word, t.memByte a = s.memByte a

/-- R250, R24: the block moves the command phase only as the table says, from column and to column, for every instruction
but Select-and-Transfer. That one makes the moves of R207, R208, R215 and R216, which are no rows of the table too: from any
phase where nothing is selected, from 0x31 to 0x41 and 0x45 to 0x45 or 0x46, from every phase to 0x60. A tick moves the phase
as one of its callbacks does (R316), and only with a transfer open for the DMA engine; board reset makes it 0. -/
def Obligations.PhaseMovesByTheTable : Prop :=
  (∀ (i : Instr) (s t : State), exec i s = .next t →
    t.ctl.phase = s.ctl.phase ∨ phaseMove (carried i) s.ctl t.ctl.phase) ∧
  (∀ s : State, s.tick.ctl.phase = s.ctl.phase ∨ (s.ctl.dataAvail = .dma ∧ ∃ t, s.target = some t ∧
    phaseMove (if t.direction = .toHost then .msgContIn 0 0 else .msgContOut 0 0) s.ctl s.tick.ctl.phase)) ∧
  ∀ s : State, s.boardReset.ctl.phase = 0x00

/-- R29, R41, R43, R47: every step keeps the shape of the state: memories in canonical form, QCAP slots with the index in
range, the command queue within its capacity and holding only words the block produces, `gaddr` masked, `sramOff` in
range, the unused `istr` bits zero, no two controllers with one number; a held host is held at its oldest access, by the
controller it is for, whose command queue is full (R302). -/
def Obligations.StepKeepsTheShape : Prop :=
  ∀ s t : State, s.Shape → step s = .next t → t.Shape

/-- R355: every step that starts with the line agreeing with the state ends with it agreeing. -/
def Obligations.StepKeepsTheLine : Prop :=
  ∀ s t : State, s.LineOk → step s = .next t → t.LineOk

/-- Reset has that shape, and its line agrees. It is the start state S0 of 95_test_vectors.md: one controller as R320 and R55
construct it, the line false, nothing scheduled or pending. The model's choices: the board's variant and the target attached
(log 4), the host's last data 0 (log 15), the memory that decodes (log 12), no turn and no access waiting (logs 1, 3), no hold (log 41). Then the
defaults of R8 on every board, of which the command queue's capacity (log 7) and the address mask among R8's two (log 5) are the
model's. -/
def Obligations.ResetIsSound : Prop :=
  State.reset.Shape ∧ State.reset.LineOk ∧
  State.reset.ctl = Controller.construct 0 (defaultParams .cbmDmac) (attach [3]) ∧ State.reset.others = [] ∧
  State.reset.irqLine = false ∧ State.reset.mem = [] ∧ State.reset.memMap = [{ base := 0, size := 2 ^ 32 }] ∧
  State.reset.turns = [] ∧ State.reset.hostOps = [] ∧ State.reset.hostHeld = none ∧ State.reset.hostData = 0 ∧
  ∀ v : Variant,
    let p := defaultParams v
    p.variant = v ∧ p.legacyDmac = false ∧ p.chipRev = .wd33c93a ∧ p.qcap = 2 ∧ p.scratchSize = 32 ∧ p.sramSize = 16384 ∧
    p.addrMask = 0x00FFFFFF ∧ p.cmdqCap = 4 ∧ p.tTimeout = 1000 ∧ p.tReset = 50 ∧ p.tInvalid = 10 ∧ p.tSel1 = 2 ∧
    p.tSel2 = 4 ∧ p.tRetryOut = 10 ∧ p.tRetryIn = 1 ∧ p.shutdown = 0xFFFFFFFF ∧ p.regmap = defaultRegmap v
end

