-- ==== Sys2Proof/Laws/State.lean ====
section
/-! SUPPORT. One lemma for each field of the state under each update of it, true by computation: no later proof
unfolds a record update. -/

namespace Sys2Proof.Machine

/-! ### The acting controller changes -/

@[simp] theorem State.upd_ctl (s : State) (f : Controller → Controller) : (s.upd f).ctl = f s.ctl := rfl
@[simp] theorem State.upd_others (s : State) (f : Controller → Controller) : (s.upd f).others = s.others := rfl
@[simp] theorem State.upd_irqLine (s : State) (f : Controller → Controller) : (s.upd f).irqLine = s.irqLine := rfl
@[simp] theorem State.upd_mem (s : State) (f : Controller → Controller) : (s.upd f).mem = s.mem := rfl
@[simp] theorem State.upd_memMap (s : State) (f : Controller → Controller) : (s.upd f).memMap = s.memMap := rfl
@[simp] theorem State.upd_turns (s : State) (f : Controller → Controller) : (s.upd f).turns = s.turns := rfl
@[simp] theorem State.upd_hostOps (s : State) (f : Controller → Controller) : (s.upd f).hostOps = s.hostOps := rfl
@[simp] theorem State.upd_hostHeld (s : State) (f : Controller → Controller) : (s.upd f).hostHeld = s.hostHeld := rfl
@[simp] theorem State.upd_hostData (s : State) (f : Controller → Controller) : (s.upd f).hostData = s.hostData := rfl
@[simp] theorem State.upd_draws (s : State) (f : Controller → Controller) : (s.upd f).draws = s.draws := rfl
@[simp] theorem State.upd_upd (s : State) (f g : Controller → Controller) :
    (s.upd f).upd g = s.upd (fun c => g (f c)) := rfl
theorem State.upd_congr {s : State} {f g : Controller → Controller} (h : f s.ctl = g s.ctl) : s.upd f = s.upd g := by
  simp [State.upd, h]
theorem State.upd_self {s : State} {f : Controller → Controller} (h : f s.ctl = s.ctl) : s.upd f = s := by
  simp [State.upd, h]
@[simp] theorem State.target_upd (s : State) (f : Controller → Controller) : (s.upd f).target = (f s.ctl).target := rfl

/-! ### A register is written (`setReg`, `setTc`, `setPhase`) -/

@[simp] theorem Controller.setReg_slot (c : Controller) (i : RegNum) (v : Byte) : (c.setReg i v).slot = c.slot := rfl
@[simp] theorem Controller.setReg_cfg (c : Controller) (i : RegNum) (v : Byte) : (c.setReg i v).cfg = c.cfg := rfl
@[simp] theorem Controller.setReg_sasr (c : Controller) (i : RegNum) (v : Byte) : (c.setReg i v).sasr = c.sasr := rfl
@[simp] theorem Controller.setReg_selected (c : Controller) (i : RegNum) (v : Byte) : (c.setReg i v).selected = c.selected := rfl
@[simp] theorem Controller.setReg_busy (c : Controller) (i : RegNum) (v : Byte) : (c.setReg i v).busy = c.busy := rfl
@[simp] theorem Controller.setReg_dataAvail (c : Controller) (i : RegNum) (v : Byte) : (c.setReg i v).dataAvail = c.dataAvail := rfl
@[simp] theorem Controller.setReg_auxInt (c : Controller) (i : RegNum) (v : Byte) : (c.setReg i v).auxInt = c.auxInt := rfl
@[simp] theorem Controller.setReg_scratch (c : Controller) (i : RegNum) (v : Byte) : (c.setReg i v).scratch = c.scratch := rfl
@[simp] theorem Controller.setReg_scratchOff (c : Controller) (i : RegNum) (v : Byte) : (c.setReg i v).scratchOff = c.scratchOff := rfl
@[simp] theorem Controller.setReg_queue (c : Controller) (i : RegNum) (v : Byte) : (c.setReg i v).queue = c.queue := rfl
@[simp] theorem Controller.setReg_qIndex (c : Controller) (i : RegNum) (v : Byte) : (c.setReg i v).qIndex = c.qIndex := rfl
@[simp] theorem Controller.setReg_curTarget (c : Controller) (i : RegNum) (v : Byte) : (c.setReg i v).curTarget = c.curTarget := rfl
@[simp] theorem Controller.setReg_targets (c : Controller) (i : RegNum) (v : Byte) : (c.setReg i v).targets = c.targets := rfl
@[simp] theorem Controller.setReg_istr (c : Controller) (i : RegNum) (v : Byte) : (c.setReg i v).istr = c.istr := rfl
@[simp] theorem Controller.setReg_cntr (c : Controller) (i : RegNum) (v : Byte) : (c.setReg i v).cntr = c.cntr := rfl
@[simp] theorem Controller.setReg_wtc (c : Controller) (i : RegNum) (v : Byte) : (c.setReg i v).wtc = c.wtc := rfl
@[simp] theorem Controller.setReg_acr (c : Controller) (i : RegNum) (v : Byte) : (c.setReg i v).acr = c.acr := rfl
@[simp] theorem Controller.setReg_dawr (c : Controller) (i : RegNum) (v : Byte) : (c.setReg i v).dawr = c.dawr := rfl
@[simp] theorem Controller.setReg_gcntr (c : Controller) (i : RegNum) (v : Byte) : (c.setReg i v).gcntr = c.gcntr := rfl
@[simp] theorem Controller.setReg_gaddr (c : Controller) (i : RegNum) (v : Byte) : (c.setReg i v).gaddr = c.gaddr := rfl
@[simp] theorem Controller.setReg_gbank (c : Controller) (i : RegNum) (v : Byte) : (c.setReg i v).gbank = c.gbank := rfl
@[simp] theorem Controller.setReg_sram (c : Controller) (i : RegNum) (v : Byte) : (c.setReg i v).sram = c.sram := rfl
@[simp] theorem Controller.setReg_sramOff (c : Controller) (i : RegNum) (v : Byte) : (c.setReg i v).sramOff = c.sramOff := rfl
@[simp] theorem Controller.setReg_dmaActive (c : Controller) (i : RegNum) (v : Byte) : (c.setReg i v).dmaActive = c.dmaActive := rfl
@[simp] theorem Controller.setReg_xtIrq (c : Controller) (i : RegNum) (v : Byte) : (c.setReg i v).xtIrq = c.xtIrq := rfl
@[simp] theorem Controller.setReg_cmdq (c : Controller) (i : RegNum) (v : Byte) : (c.setReg i v).cmdq = c.cmdq := rfl
@[simp] theorem Controller.setReg_workerAlive (c : Controller) (i : RegNum) (v : Byte) : (c.setReg i v).workerAlive = c.workerAlive := rfl
@[simp] theorem Controller.setReg_enabled (c : Controller) (i : RegNum) (v : Byte) : (c.setReg i v).enabled = c.enabled := rfl
@[simp] theorem Controller.setReg_configured (c : Controller) (i : RegNum) (v : Byte) : (c.setReg i v).configured = c.configured := rfl
@[simp] theorem Controller.setReg_down (c : Controller) (i : RegNum) (v : Byte) : (c.setReg i v).down = c.down := rfl
@[simp] theorem Controller.setTc_slot (c : Controller) (v : Count) : (c.setTc v).slot = c.slot := rfl
@[simp] theorem Controller.setTc_cfg (c : Controller) (v : Count) : (c.setTc v).cfg = c.cfg := rfl
@[simp] theorem Controller.setTc_sasr (c : Controller) (v : Count) : (c.setTc v).sasr = c.sasr := rfl
@[simp] theorem Controller.setTc_selected (c : Controller) (v : Count) : (c.setTc v).selected = c.selected := rfl
@[simp] theorem Controller.setTc_busy (c : Controller) (v : Count) : (c.setTc v).busy = c.busy := rfl
@[simp] theorem Controller.setTc_dataAvail (c : Controller) (v : Count) : (c.setTc v).dataAvail = c.dataAvail := rfl
@[simp] theorem Controller.setTc_auxInt (c : Controller) (v : Count) : (c.setTc v).auxInt = c.auxInt := rfl
@[simp] theorem Controller.setTc_scratch (c : Controller) (v : Count) : (c.setTc v).scratch = c.scratch := rfl
@[simp] theorem Controller.setTc_scratchOff (c : Controller) (v : Count) : (c.setTc v).scratchOff = c.scratchOff := rfl
@[simp] theorem Controller.setTc_queue (c : Controller) (v : Count) : (c.setTc v).queue = c.queue := rfl
@[simp] theorem Controller.setTc_qIndex (c : Controller) (v : Count) : (c.setTc v).qIndex = c.qIndex := rfl
@[simp] theorem Controller.setTc_curTarget (c : Controller) (v : Count) : (c.setTc v).curTarget = c.curTarget := rfl
@[simp] theorem Controller.setTc_targets (c : Controller) (v : Count) : (c.setTc v).targets = c.targets := rfl
@[simp] theorem Controller.setTc_istr (c : Controller) (v : Count) : (c.setTc v).istr = c.istr := rfl
@[simp] theorem Controller.setTc_cntr (c : Controller) (v : Count) : (c.setTc v).cntr = c.cntr := rfl
@[simp] theorem Controller.setTc_wtc (c : Controller) (v : Count) : (c.setTc v).wtc = c.wtc := rfl
@[simp] theorem Controller.setTc_acr (c : Controller) (v : Count) : (c.setTc v).acr = c.acr := rfl
@[simp] theorem Controller.setTc_dawr (c : Controller) (v : Count) : (c.setTc v).dawr = c.dawr := rfl
@[simp] theorem Controller.setTc_gcntr (c : Controller) (v : Count) : (c.setTc v).gcntr = c.gcntr := rfl
@[simp] theorem Controller.setTc_gaddr (c : Controller) (v : Count) : (c.setTc v).gaddr = c.gaddr := rfl
@[simp] theorem Controller.setTc_gbank (c : Controller) (v : Count) : (c.setTc v).gbank = c.gbank := rfl
@[simp] theorem Controller.setTc_sram (c : Controller) (v : Count) : (c.setTc v).sram = c.sram := rfl
@[simp] theorem Controller.setTc_sramOff (c : Controller) (v : Count) : (c.setTc v).sramOff = c.sramOff := rfl
@[simp] theorem Controller.setTc_dmaActive (c : Controller) (v : Count) : (c.setTc v).dmaActive = c.dmaActive := rfl
@[simp] theorem Controller.setTc_xtIrq (c : Controller) (v : Count) : (c.setTc v).xtIrq = c.xtIrq := rfl
@[simp] theorem Controller.setTc_cmdq (c : Controller) (v : Count) : (c.setTc v).cmdq = c.cmdq := rfl
@[simp] theorem Controller.setTc_workerAlive (c : Controller) (v : Count) : (c.setTc v).workerAlive = c.workerAlive := rfl
@[simp] theorem Controller.setTc_enabled (c : Controller) (v : Count) : (c.setTc v).enabled = c.enabled := rfl
@[simp] theorem Controller.setTc_configured (c : Controller) (v : Count) : (c.setTc v).configured = c.configured := rfl
@[simp] theorem Controller.setTc_down (c : Controller) (v : Count) : (c.setTc v).down = c.down := rfl
@[simp] theorem Controller.setPhase_slot (c : Controller) (v : Byte) : (c.setPhase v).slot = c.slot := rfl
@[simp] theorem Controller.setPhase_cfg (c : Controller) (v : Byte) : (c.setPhase v).cfg = c.cfg := rfl
@[simp] theorem Controller.setPhase_sasr (c : Controller) (v : Byte) : (c.setPhase v).sasr = c.sasr := rfl
@[simp] theorem Controller.setPhase_selected (c : Controller) (v : Byte) : (c.setPhase v).selected = c.selected := rfl
@[simp] theorem Controller.setPhase_busy (c : Controller) (v : Byte) : (c.setPhase v).busy = c.busy := rfl
@[simp] theorem Controller.setPhase_dataAvail (c : Controller) (v : Byte) : (c.setPhase v).dataAvail = c.dataAvail := rfl
@[simp] theorem Controller.setPhase_auxInt (c : Controller) (v : Byte) : (c.setPhase v).auxInt = c.auxInt := rfl
@[simp] theorem Controller.setPhase_scratch (c : Controller) (v : Byte) : (c.setPhase v).scratch = c.scratch := rfl
@[simp] theorem Controller.setPhase_scratchOff (c : Controller) (v : Byte) : (c.setPhase v).scratchOff = c.scratchOff := rfl
@[simp] theorem Controller.setPhase_queue (c : Controller) (v : Byte) : (c.setPhase v).queue = c.queue := rfl
@[simp] theorem Controller.setPhase_qIndex (c : Controller) (v : Byte) : (c.setPhase v).qIndex = c.qIndex := rfl
@[simp] theorem Controller.setPhase_curTarget (c : Controller) (v : Byte) : (c.setPhase v).curTarget = c.curTarget := rfl
@[simp] theorem Controller.setPhase_targets (c : Controller) (v : Byte) : (c.setPhase v).targets = c.targets := rfl
@[simp] theorem Controller.setPhase_istr (c : Controller) (v : Byte) : (c.setPhase v).istr = c.istr := rfl
@[simp] theorem Controller.setPhase_cntr (c : Controller) (v : Byte) : (c.setPhase v).cntr = c.cntr := rfl
@[simp] theorem Controller.setPhase_wtc (c : Controller) (v : Byte) : (c.setPhase v).wtc = c.wtc := rfl
@[simp] theorem Controller.setPhase_acr (c : Controller) (v : Byte) : (c.setPhase v).acr = c.acr := rfl
@[simp] theorem Controller.setPhase_dawr (c : Controller) (v : Byte) : (c.setPhase v).dawr = c.dawr := rfl
@[simp] theorem Controller.setPhase_gcntr (c : Controller) (v : Byte) : (c.setPhase v).gcntr = c.gcntr := rfl
@[simp] theorem Controller.setPhase_gaddr (c : Controller) (v : Byte) : (c.setPhase v).gaddr = c.gaddr := rfl
@[simp] theorem Controller.setPhase_gbank (c : Controller) (v : Byte) : (c.setPhase v).gbank = c.gbank := rfl
@[simp] theorem Controller.setPhase_sram (c : Controller) (v : Byte) : (c.setPhase v).sram = c.sram := rfl
@[simp] theorem Controller.setPhase_sramOff (c : Controller) (v : Byte) : (c.setPhase v).sramOff = c.sramOff := rfl
@[simp] theorem Controller.setPhase_dmaActive (c : Controller) (v : Byte) : (c.setPhase v).dmaActive = c.dmaActive := rfl
@[simp] theorem Controller.setPhase_xtIrq (c : Controller) (v : Byte) : (c.setPhase v).xtIrq = c.xtIrq := rfl
@[simp] theorem Controller.setPhase_cmdq (c : Controller) (v : Byte) : (c.setPhase v).cmdq = c.cmdq := rfl
@[simp] theorem Controller.setPhase_workerAlive (c : Controller) (v : Byte) : (c.setPhase v).workerAlive = c.workerAlive := rfl
@[simp] theorem Controller.setPhase_enabled (c : Controller) (v : Byte) : (c.setPhase v).enabled = c.enabled := rfl
@[simp] theorem Controller.setPhase_configured (c : Controller) (v : Byte) : (c.setPhase v).configured = c.configured := rfl
@[simp] theorem Controller.setPhase_down (c : Controller) (v : Byte) : (c.setPhase v).down = c.down := rfl

/-! ### A status is posted or delivered -/

@[simp] theorem Controller.post_slot (c : Controller) (st : Byte) (d : Nat) : (c.post st d).slot = c.slot := rfl
@[simp] theorem Controller.post_cfg (c : Controller) (st : Byte) (d : Nat) : (c.post st d).cfg = c.cfg := rfl
@[simp] theorem Controller.post_regs (c : Controller) (st : Byte) (d : Nat) : (c.post st d).regs = c.regs := rfl
@[simp] theorem Controller.post_sasr (c : Controller) (st : Byte) (d : Nat) : (c.post st d).sasr = c.sasr := rfl
@[simp] theorem Controller.post_selected (c : Controller) (st : Byte) (d : Nat) : (c.post st d).selected = c.selected := rfl
@[simp] theorem Controller.post_busy (c : Controller) (st : Byte) (d : Nat) : (c.post st d).busy = c.busy := rfl
@[simp] theorem Controller.post_dataAvail (c : Controller) (st : Byte) (d : Nat) : (c.post st d).dataAvail = c.dataAvail := rfl
@[simp] theorem Controller.post_auxInt (c : Controller) (st : Byte) (d : Nat) : (c.post st d).auxInt = c.auxInt := rfl
@[simp] theorem Controller.post_scratch (c : Controller) (st : Byte) (d : Nat) : (c.post st d).scratch = c.scratch := rfl
@[simp] theorem Controller.post_scratchOff (c : Controller) (st : Byte) (d : Nat) : (c.post st d).scratchOff = c.scratchOff := rfl
@[simp] theorem Controller.post_curTarget (c : Controller) (st : Byte) (d : Nat) : (c.post st d).curTarget = c.curTarget := rfl
@[simp] theorem Controller.post_targets (c : Controller) (st : Byte) (d : Nat) : (c.post st d).targets = c.targets := rfl
@[simp] theorem Controller.post_istr (c : Controller) (st : Byte) (d : Nat) : (c.post st d).istr = c.istr := rfl
@[simp] theorem Controller.post_cntr (c : Controller) (st : Byte) (d : Nat) : (c.post st d).cntr = c.cntr := rfl
@[simp] theorem Controller.post_wtc (c : Controller) (st : Byte) (d : Nat) : (c.post st d).wtc = c.wtc := rfl
@[simp] theorem Controller.post_acr (c : Controller) (st : Byte) (d : Nat) : (c.post st d).acr = c.acr := rfl
@[simp] theorem Controller.post_dawr (c : Controller) (st : Byte) (d : Nat) : (c.post st d).dawr = c.dawr := rfl
@[simp] theorem Controller.post_gcntr (c : Controller) (st : Byte) (d : Nat) : (c.post st d).gcntr = c.gcntr := rfl
@[simp] theorem Controller.post_gaddr (c : Controller) (st : Byte) (d : Nat) : (c.post st d).gaddr = c.gaddr := rfl
@[simp] theorem Controller.post_gbank (c : Controller) (st : Byte) (d : Nat) : (c.post st d).gbank = c.gbank := rfl
@[simp] theorem Controller.post_sram (c : Controller) (st : Byte) (d : Nat) : (c.post st d).sram = c.sram := rfl
@[simp] theorem Controller.post_sramOff (c : Controller) (st : Byte) (d : Nat) : (c.post st d).sramOff = c.sramOff := rfl
@[simp] theorem Controller.post_dmaActive (c : Controller) (st : Byte) (d : Nat) : (c.post st d).dmaActive = c.dmaActive := rfl
@[simp] theorem Controller.post_xtIrq (c : Controller) (st : Byte) (d : Nat) : (c.post st d).xtIrq = c.xtIrq := rfl
@[simp] theorem Controller.post_cmdq (c : Controller) (st : Byte) (d : Nat) : (c.post st d).cmdq = c.cmdq := rfl
@[simp] theorem Controller.post_workerAlive (c : Controller) (st : Byte) (d : Nat) : (c.post st d).workerAlive = c.workerAlive := rfl
@[simp] theorem Controller.post_enabled (c : Controller) (st : Byte) (d : Nat) : (c.post st d).enabled = c.enabled := rfl
@[simp] theorem Controller.post_configured (c : Controller) (st : Byte) (d : Nat) : (c.post st d).configured = c.configured := rfl
@[simp] theorem Controller.post_down (c : Controller) (st : Byte) (d : Nat) : (c.post st d).down = c.down := rfl
@[simp] theorem Controller.deliver_slot (c : Controller) (st : Byte) : (c.deliver st).slot = c.slot := rfl
@[simp] theorem Controller.deliver_cfg (c : Controller) (st : Byte) : (c.deliver st).cfg = c.cfg := rfl
@[simp] theorem Controller.deliver_sasr (c : Controller) (st : Byte) : (c.deliver st).sasr = c.sasr := rfl
@[simp] theorem Controller.deliver_selected (c : Controller) (st : Byte) : (c.deliver st).selected = c.selected := rfl
@[simp] theorem Controller.deliver_dataAvail (c : Controller) (st : Byte) : (c.deliver st).dataAvail = c.dataAvail := rfl
@[simp] theorem Controller.deliver_scratch (c : Controller) (st : Byte) : (c.deliver st).scratch = c.scratch := rfl
@[simp] theorem Controller.deliver_scratchOff (c : Controller) (st : Byte) : (c.deliver st).scratchOff = c.scratchOff := rfl
@[simp] theorem Controller.deliver_queue (c : Controller) (st : Byte) : (c.deliver st).queue = c.queue := rfl
@[simp] theorem Controller.deliver_qIndex (c : Controller) (st : Byte) : (c.deliver st).qIndex = c.qIndex := rfl
@[simp] theorem Controller.deliver_curTarget (c : Controller) (st : Byte) : (c.deliver st).curTarget = c.curTarget := rfl
@[simp] theorem Controller.deliver_targets (c : Controller) (st : Byte) : (c.deliver st).targets = c.targets := rfl
@[simp] theorem Controller.deliver_istr (c : Controller) (st : Byte) : (c.deliver st).istr = c.istr := rfl
@[simp] theorem Controller.deliver_cntr (c : Controller) (st : Byte) : (c.deliver st).cntr = c.cntr := rfl
@[simp] theorem Controller.deliver_wtc (c : Controller) (st : Byte) : (c.deliver st).wtc = c.wtc := rfl
@[simp] theorem Controller.deliver_acr (c : Controller) (st : Byte) : (c.deliver st).acr = c.acr := rfl
@[simp] theorem Controller.deliver_dawr (c : Controller) (st : Byte) : (c.deliver st).dawr = c.dawr := rfl
@[simp] theorem Controller.deliver_gcntr (c : Controller) (st : Byte) : (c.deliver st).gcntr = c.gcntr := rfl
@[simp] theorem Controller.deliver_gaddr (c : Controller) (st : Byte) : (c.deliver st).gaddr = c.gaddr := rfl
@[simp] theorem Controller.deliver_gbank (c : Controller) (st : Byte) : (c.deliver st).gbank = c.gbank := rfl
@[simp] theorem Controller.deliver_sram (c : Controller) (st : Byte) : (c.deliver st).sram = c.sram := rfl
@[simp] theorem Controller.deliver_sramOff (c : Controller) (st : Byte) : (c.deliver st).sramOff = c.sramOff := rfl
@[simp] theorem Controller.deliver_dmaActive (c : Controller) (st : Byte) : (c.deliver st).dmaActive = c.dmaActive := rfl
@[simp] theorem Controller.deliver_xtIrq (c : Controller) (st : Byte) : (c.deliver st).xtIrq = c.xtIrq := rfl
@[simp] theorem Controller.deliver_cmdq (c : Controller) (st : Byte) : (c.deliver st).cmdq = c.cmdq := rfl
@[simp] theorem Controller.deliver_workerAlive (c : Controller) (st : Byte) : (c.deliver st).workerAlive = c.workerAlive := rfl
@[simp] theorem Controller.deliver_enabled (c : Controller) (st : Byte) : (c.deliver st).enabled = c.enabled := rfl
@[simp] theorem Controller.deliver_configured (c : Controller) (st : Byte) : (c.deliver st).configured = c.configured := rfl
@[simp] theorem Controller.deliver_down (c : Controller) (st : Byte) : (c.deliver st).down = c.down := rfl
@[simp] theorem Controller.deliver_auxInt (c : Controller) (st : Byte) : (c.deliver st).auxInt = true := rfl
@[simp] theorem Controller.deliver_busy (c : Controller) (st : Byte) : (c.deliver st).busy = false := rfl

/-! ### A byte is mirrored -/

@[simp] theorem Controller.mirror_slot (c : Controller) (b : Byte) : (c.mirror b).slot = c.slot := rfl
@[simp] theorem Controller.mirror_cfg (c : Controller) (b : Byte) : (c.mirror b).cfg = c.cfg := rfl
@[simp] theorem Controller.mirror_regs (c : Controller) (b : Byte) : (c.mirror b).regs = c.regs := rfl
@[simp] theorem Controller.mirror_sasr (c : Controller) (b : Byte) : (c.mirror b).sasr = c.sasr := rfl
@[simp] theorem Controller.mirror_selected (c : Controller) (b : Byte) : (c.mirror b).selected = c.selected := rfl
@[simp] theorem Controller.mirror_busy (c : Controller) (b : Byte) : (c.mirror b).busy = c.busy := rfl
@[simp] theorem Controller.mirror_dataAvail (c : Controller) (b : Byte) : (c.mirror b).dataAvail = c.dataAvail := rfl
@[simp] theorem Controller.mirror_auxInt (c : Controller) (b : Byte) : (c.mirror b).auxInt = c.auxInt := rfl
@[simp] theorem Controller.mirror_queue (c : Controller) (b : Byte) : (c.mirror b).queue = c.queue := rfl
@[simp] theorem Controller.mirror_qIndex (c : Controller) (b : Byte) : (c.mirror b).qIndex = c.qIndex := rfl
@[simp] theorem Controller.mirror_curTarget (c : Controller) (b : Byte) : (c.mirror b).curTarget = c.curTarget := rfl
@[simp] theorem Controller.mirror_targets (c : Controller) (b : Byte) : (c.mirror b).targets = c.targets := rfl
@[simp] theorem Controller.mirror_istr (c : Controller) (b : Byte) : (c.mirror b).istr = c.istr := rfl
@[simp] theorem Controller.mirror_cntr (c : Controller) (b : Byte) : (c.mirror b).cntr = c.cntr := rfl
@[simp] theorem Controller.mirror_wtc (c : Controller) (b : Byte) : (c.mirror b).wtc = c.wtc := rfl
@[simp] theorem Controller.mirror_acr (c : Controller) (b : Byte) : (c.mirror b).acr = c.acr := rfl
@[simp] theorem Controller.mirror_dawr (c : Controller) (b : Byte) : (c.mirror b).dawr = c.dawr := rfl
@[simp] theorem Controller.mirror_gcntr (c : Controller) (b : Byte) : (c.mirror b).gcntr = c.gcntr := rfl
@[simp] theorem Controller.mirror_gaddr (c : Controller) (b : Byte) : (c.mirror b).gaddr = c.gaddr := rfl
@[simp] theorem Controller.mirror_gbank (c : Controller) (b : Byte) : (c.mirror b).gbank = c.gbank := rfl
@[simp] theorem Controller.mirror_sram (c : Controller) (b : Byte) : (c.mirror b).sram = c.sram := rfl
@[simp] theorem Controller.mirror_sramOff (c : Controller) (b : Byte) : (c.mirror b).sramOff = c.sramOff := rfl
@[simp] theorem Controller.mirror_dmaActive (c : Controller) (b : Byte) : (c.mirror b).dmaActive = c.dmaActive := rfl
@[simp] theorem Controller.mirror_xtIrq (c : Controller) (b : Byte) : (c.mirror b).xtIrq = c.xtIrq := rfl
@[simp] theorem Controller.mirror_cmdq (c : Controller) (b : Byte) : (c.mirror b).cmdq = c.cmdq := rfl
@[simp] theorem Controller.mirror_workerAlive (c : Controller) (b : Byte) : (c.mirror b).workerAlive = c.workerAlive := rfl
@[simp] theorem Controller.mirror_enabled (c : Controller) (b : Byte) : (c.mirror b).enabled = c.enabled := rfl
@[simp] theorem Controller.mirror_configured (c : Controller) (b : Byte) : (c.mirror b).configured = c.configured := rfl
@[simp] theorem Controller.mirror_down (c : Controller) (b : Byte) : (c.mirror b).down = c.down := rfl
@[simp] theorem Controller.mirror_scratchOff (c : Controller) (b : Byte) : (c.mirror b).scratchOff = c.scratchOff + 1 := rfl

/-! ### The current target changes -/

@[simp] theorem Controller.setTarget_slot (c : Controller) (t : Target) : (c.setTarget t).slot = c.slot := by
  unfold Controller.setTarget; split <;> rfl
@[simp] theorem Controller.setTarget_cfg (c : Controller) (t : Target) : (c.setTarget t).cfg = c.cfg := by
  unfold Controller.setTarget; split <;> rfl
@[simp] theorem Controller.setTarget_regs (c : Controller) (t : Target) : (c.setTarget t).regs = c.regs := by
  unfold Controller.setTarget; split <;> rfl
@[simp] theorem Controller.setTarget_sasr (c : Controller) (t : Target) : (c.setTarget t).sasr = c.sasr := by
  unfold Controller.setTarget; split <;> rfl
@[simp] theorem Controller.setTarget_selected (c : Controller) (t : Target) : (c.setTarget t).selected = c.selected := by
  unfold Controller.setTarget; split <;> rfl
@[simp] theorem Controller.setTarget_busy (c : Controller) (t : Target) : (c.setTarget t).busy = c.busy := by
  unfold Controller.setTarget; split <;> rfl
@[simp] theorem Controller.setTarget_dataAvail (c : Controller) (t : Target) : (c.setTarget t).dataAvail = c.dataAvail := by
  unfold Controller.setTarget; split <;> rfl
@[simp] theorem Controller.setTarget_auxInt (c : Controller) (t : Target) : (c.setTarget t).auxInt = c.auxInt := by
  unfold Controller.setTarget; split <;> rfl
@[simp] theorem Controller.setTarget_scratch (c : Controller) (t : Target) : (c.setTarget t).scratch = c.scratch := by
  unfold Controller.setTarget; split <;> rfl
@[simp] theorem Controller.setTarget_scratchOff (c : Controller) (t : Target) : (c.setTarget t).scratchOff = c.scratchOff := by
  unfold Controller.setTarget; split <;> rfl
@[simp] theorem Controller.setTarget_queue (c : Controller) (t : Target) : (c.setTarget t).queue = c.queue := by
  unfold Controller.setTarget; split <;> rfl
@[simp] theorem Controller.setTarget_qIndex (c : Controller) (t : Target) : (c.setTarget t).qIndex = c.qIndex := by
  unfold Controller.setTarget; split <;> rfl
@[simp] theorem Controller.setTarget_curTarget (c : Controller) (t : Target) : (c.setTarget t).curTarget = c.curTarget := by
  unfold Controller.setTarget; split <;> rfl
@[simp] theorem Controller.setTarget_istr (c : Controller) (t : Target) : (c.setTarget t).istr = c.istr := by
  unfold Controller.setTarget; split <;> rfl
@[simp] theorem Controller.setTarget_cntr (c : Controller) (t : Target) : (c.setTarget t).cntr = c.cntr := by
  unfold Controller.setTarget; split <;> rfl
@[simp] theorem Controller.setTarget_wtc (c : Controller) (t : Target) : (c.setTarget t).wtc = c.wtc := by
  unfold Controller.setTarget; split <;> rfl
@[simp] theorem Controller.setTarget_acr (c : Controller) (t : Target) : (c.setTarget t).acr = c.acr := by
  unfold Controller.setTarget; split <;> rfl
@[simp] theorem Controller.setTarget_dawr (c : Controller) (t : Target) : (c.setTarget t).dawr = c.dawr := by
  unfold Controller.setTarget; split <;> rfl
@[simp] theorem Controller.setTarget_gcntr (c : Controller) (t : Target) : (c.setTarget t).gcntr = c.gcntr := by
  unfold Controller.setTarget; split <;> rfl
@[simp] theorem Controller.setTarget_gaddr (c : Controller) (t : Target) : (c.setTarget t).gaddr = c.gaddr := by
  unfold Controller.setTarget; split <;> rfl
@[simp] theorem Controller.setTarget_gbank (c : Controller) (t : Target) : (c.setTarget t).gbank = c.gbank := by
  unfold Controller.setTarget; split <;> rfl
@[simp] theorem Controller.setTarget_sram (c : Controller) (t : Target) : (c.setTarget t).sram = c.sram := by
  unfold Controller.setTarget; split <;> rfl
@[simp] theorem Controller.setTarget_sramOff (c : Controller) (t : Target) : (c.setTarget t).sramOff = c.sramOff := by
  unfold Controller.setTarget; split <;> rfl
@[simp] theorem Controller.setTarget_dmaActive (c : Controller) (t : Target) : (c.setTarget t).dmaActive = c.dmaActive := by
  unfold Controller.setTarget; split <;> rfl
@[simp] theorem Controller.setTarget_xtIrq (c : Controller) (t : Target) : (c.setTarget t).xtIrq = c.xtIrq := by
  unfold Controller.setTarget; split <;> rfl
@[simp] theorem Controller.setTarget_cmdq (c : Controller) (t : Target) : (c.setTarget t).cmdq = c.cmdq := by
  unfold Controller.setTarget; split <;> rfl
@[simp] theorem Controller.setTarget_workerAlive (c : Controller) (t : Target) : (c.setTarget t).workerAlive = c.workerAlive := by
  unfold Controller.setTarget; split <;> rfl
@[simp] theorem Controller.setTarget_enabled (c : Controller) (t : Target) : (c.setTarget t).enabled = c.enabled := by
  unfold Controller.setTarget; split <;> rfl
@[simp] theorem Controller.setTarget_configured (c : Controller) (t : Target) : (c.setTarget t).configured = c.configured := by
  unfold Controller.setTarget; split <;> rfl
@[simp] theorem Controller.setTarget_down (c : Controller) (t : Target) : (c.setTarget t).down = c.down := by
  unfold Controller.setTarget; split <;> rfl

/-! ### The counter counts down -/

@[simp] theorem Controller.decTc_slot (c : Controller)  : (c.decTc.1).slot = c.slot := by
  unfold Controller.decTc; split <;> rfl
@[simp] theorem Controller.decTc_cfg (c : Controller)  : (c.decTc.1).cfg = c.cfg := by
  unfold Controller.decTc; split <;> rfl
@[simp] theorem Controller.decTc_sasr (c : Controller)  : (c.decTc.1).sasr = c.sasr := by
  unfold Controller.decTc; split <;> rfl
@[simp] theorem Controller.decTc_selected (c : Controller)  : (c.decTc.1).selected = c.selected := by
  unfold Controller.decTc; split <;> rfl
@[simp] theorem Controller.decTc_busy (c : Controller)  : (c.decTc.1).busy = c.busy := by
  unfold Controller.decTc; split <;> rfl
@[simp] theorem Controller.decTc_dataAvail (c : Controller)  : (c.decTc.1).dataAvail = c.dataAvail := by
  unfold Controller.decTc; split <;> rfl
@[simp] theorem Controller.decTc_auxInt (c : Controller)  : (c.decTc.1).auxInt = c.auxInt := by
  unfold Controller.decTc; split <;> rfl
@[simp] theorem Controller.decTc_scratch (c : Controller)  : (c.decTc.1).scratch = c.scratch := by
  unfold Controller.decTc; split <;> rfl
@[simp] theorem Controller.decTc_scratchOff (c : Controller)  : (c.decTc.1).scratchOff = c.scratchOff := by
  unfold Controller.decTc; split <;> rfl
@[simp] theorem Controller.decTc_queue (c : Controller)  : (c.decTc.1).queue = c.queue := by
  unfold Controller.decTc; split <;> rfl
@[simp] theorem Controller.decTc_qIndex (c : Controller)  : (c.decTc.1).qIndex = c.qIndex := by
  unfold Controller.decTc; split <;> rfl
@[simp] theorem Controller.decTc_curTarget (c : Controller)  : (c.decTc.1).curTarget = c.curTarget := by
  unfold Controller.decTc; split <;> rfl
@[simp] theorem Controller.decTc_targets (c : Controller)  : (c.decTc.1).targets = c.targets := by
  unfold Controller.decTc; split <;> rfl
@[simp] theorem Controller.decTc_istr (c : Controller)  : (c.decTc.1).istr = c.istr := by
  unfold Controller.decTc; split <;> rfl
@[simp] theorem Controller.decTc_cntr (c : Controller)  : (c.decTc.1).cntr = c.cntr := by
  unfold Controller.decTc; split <;> rfl
@[simp] theorem Controller.decTc_wtc (c : Controller)  : (c.decTc.1).wtc = c.wtc := by
  unfold Controller.decTc; split <;> rfl
@[simp] theorem Controller.decTc_acr (c : Controller)  : (c.decTc.1).acr = c.acr := by
  unfold Controller.decTc; split <;> rfl
@[simp] theorem Controller.decTc_dawr (c : Controller)  : (c.decTc.1).dawr = c.dawr := by
  unfold Controller.decTc; split <;> rfl
@[simp] theorem Controller.decTc_gcntr (c : Controller)  : (c.decTc.1).gcntr = c.gcntr := by
  unfold Controller.decTc; split <;> rfl
@[simp] theorem Controller.decTc_gaddr (c : Controller)  : (c.decTc.1).gaddr = c.gaddr := by
  unfold Controller.decTc; split <;> rfl
@[simp] theorem Controller.decTc_gbank (c : Controller)  : (c.decTc.1).gbank = c.gbank := by
  unfold Controller.decTc; split <;> rfl
@[simp] theorem Controller.decTc_sram (c : Controller)  : (c.decTc.1).sram = c.sram := by
  unfold Controller.decTc; split <;> rfl
@[simp] theorem Controller.decTc_sramOff (c : Controller)  : (c.decTc.1).sramOff = c.sramOff := by
  unfold Controller.decTc; split <;> rfl
@[simp] theorem Controller.decTc_dmaActive (c : Controller)  : (c.decTc.1).dmaActive = c.dmaActive := by
  unfold Controller.decTc; split <;> rfl
@[simp] theorem Controller.decTc_xtIrq (c : Controller)  : (c.decTc.1).xtIrq = c.xtIrq := by
  unfold Controller.decTc; split <;> rfl
@[simp] theorem Controller.decTc_cmdq (c : Controller)  : (c.decTc.1).cmdq = c.cmdq := by
  unfold Controller.decTc; split <;> rfl
@[simp] theorem Controller.decTc_workerAlive (c : Controller)  : (c.decTc.1).workerAlive = c.workerAlive := by
  unfold Controller.decTc; split <;> rfl
@[simp] theorem Controller.decTc_enabled (c : Controller)  : (c.decTc.1).enabled = c.enabled := by
  unfold Controller.decTc; split <;> rfl
@[simp] theorem Controller.decTc_configured (c : Controller)  : (c.decTc.1).configured = c.configured := by
  unfold Controller.decTc; split <;> rfl
@[simp] theorem Controller.decTc_down (c : Controller)  : (c.decTc.1).down = c.down := by
  unfold Controller.decTc; split <;> rfl

end Sys2Proof.Machine
end

