-- ==== Sys2Proof/Laws/Registers.lean ====
section
/-! SUPPORT. What reading a register, the transfer counter, the phase or the current target gives after a write. -/

namespace Sys2Proof.Machine

namespace Controller

variable (c : Controller)

theorem reg_setReg (i j : RegNum) (v : Byte) : (c.setReg i v).reg j = if i = j then v else c.reg j := by
  unfold reg setReg
  by_cases h : i = j
  · subst h; simp
  · have : i.toNat ≠ j.toNat := fun e => h (BitVec.eq_of_toNat_eq e)
    simp [this, h]

@[simp] theorem reg_setReg_same (i : RegNum) (v : Byte) : (c.setReg i v).reg i = v := by simp [reg_setReg]

theorem reg_setReg_ne {i j : RegNum} (h : i ≠ j) (v : Byte) : (c.setReg i v).reg j = c.reg j := by
  simp [reg_setReg, h]

/-- Two controllers with the same registers read alike. -/
theorem reg_congr {c d : Controller} (h : c.regs = d.regs) (i : RegNum) : c.reg i = d.reg i := by
  unfold reg; simp [h]

theorem tc_congr {c d : Controller} (h : c.regs = d.regs) : c.tc = d.tc := by simp [tc, reg_congr h]

theorem phase_congr {c d : Controller} (h : c.regs = d.regs) : c.phase = d.phase := by simp [phase, reg_congr h]

/-- Writing what is there changes nothing. -/
theorem setReg_reg_self (i : RegNum) : c.setReg i (c.reg i) = c := by
  unfold setReg reg; simp

theorem setReg_setReg (i : RegNum) (v w : Byte) : (c.setReg i v).setReg i w = c.setReg i w := by
  unfold setReg; simp

theorem setReg_comm {i j : RegNum} (h : i ≠ j) (v w : Byte) :
    (c.setReg i v).setReg j w = (c.setReg j w).setReg i v := by
  have : i.toNat ≠ j.toNat := fun e => h (BitVec.eq_of_toNat_eq e)
  unfold setReg; simp [Vector.set_comm _ _ this]

/-- `setReg` changes nothing but `regs`. -/
theorem setReg_eq (i : RegNum) (v : Byte) : c.setReg i v = { c with regs := (c.setReg i v).regs } := rfl

/-! ### The transfer counter and the phase (10_state.md R23, R24) -/

@[simp] theorem tc_setTc (v : Count) : (c.setTc v).tc = v := by
  have h1 : TC_LSB ≠ TC_MSB := by decide
  have h2 : TC_MID ≠ TC_MSB := by decide
  have h3 : TC_LSB ≠ TC_MID := by decide
  simp only [tc, setTc, reg_setReg_same, reg_setReg_ne _ h1, reg_setReg_ne _ h2, reg_setReg_ne _ h3]
  apply BitVec.eq_of_getLsbD_eq
  intro i hi
  simp only [BitVec.getLsbD_append, BitVec.getLsbD_extractLsb']
  by_cases h8 : i < 8
  · simp [h8]
  · by_cases h16 : i < 16
    · simp [h8, show i - 8 < 8 by omega, show 8 + (i - 8) = i by omega]
    · simp [h8, show ¬ i - 8 < 8 by omega, show i - 8 - 8 < 8 by omega, show 16 + (i - 8 - 8) = i by omega]

theorem reg_setTc_ne {i : RegNum} (h1 : TC_MSB ≠ i) (h2 : TC_MID ≠ i) (h3 : TC_LSB ≠ i) (v : Count) :
    (c.setTc v).reg i = c.reg i := by
  simp only [setTc, reg_setReg_ne _ h1, reg_setReg_ne _ h2, reg_setReg_ne _ h3]

/-- Writing the counter's own value changes nothing. -/
theorem setTc_tc_self : c.setTc c.tc = c := by
  have e1 : c.tc.extractLsb' 16 8 = c.reg TC_MSB := by
    apply BitVec.eq_of_getLsbD_eq; intro i hi
    simp only [tc, BitVec.getLsbD_extractLsb', BitVec.getLsbD_append]
    simp [hi, show ¬ 16 + i < 8 by omega, show ¬ 16 + i - 8 < 8 by omega, show 16 + i - 8 - 8 = i by omega]
  have e2 : c.tc.extractLsb' 8 8 = c.reg TC_MID := by
    apply BitVec.eq_of_getLsbD_eq; intro i hi
    simp only [tc, BitVec.getLsbD_extractLsb', BitVec.getLsbD_append]
    simp [hi]
  have e3 : c.tc.extractLsb' 0 8 = c.reg TC_LSB := by
    apply BitVec.eq_of_getLsbD_eq; intro i hi
    simp only [tc, BitVec.getLsbD_extractLsb', BitVec.getLsbD_append]
    simp [hi]
  rw [setTc, e1, e2, e3, setReg_reg_self, setReg_reg_self, setReg_reg_self]

@[simp] theorem phase_setPhase (v : Byte) : (c.setPhase v).phase = v := by simp [phase, setPhase]

@[simp] theorem phase_setTc (v : Count) : (c.setTc v).phase = c.phase :=
  reg_setTc_ne c (by decide) (by decide) (by decide) v

theorem phase_setReg_ne {i : RegNum} (h : i ≠ COMMAND_PHASE) (v : Byte) : (c.setReg i v).phase = c.phase :=
  reg_setReg_ne c h v

theorem reg_setPhase_ne {i : RegNum} (h : COMMAND_PHASE ≠ i) (v : Byte) : (c.setPhase v).reg i = c.reg i :=
  reg_setReg_ne c h v

@[simp] theorem tc_setPhase (v : Byte) : (c.setPhase v).tc = c.tc := by
  have h1 : COMMAND_PHASE ≠ TC_MSB := by decide
  have h2 : COMMAND_PHASE ≠ TC_MID := by decide
  have h3 : COMMAND_PHASE ≠ TC_LSB := by decide
  simp [tc, reg_setPhase_ne _ h1, reg_setPhase_ne _ h2, reg_setPhase_ne _ h3]

theorem setPhase_setPhase (v w : Byte) : (c.setPhase v).setPhase w = c.setPhase w := setReg_setReg c _ v w

/-! ### `DecTC` (43_transfer_callbacks.md R230) -/

theorem tc_decTc : c.decTc.1.tc = if c.tc = 0 then 0 else c.tc - 1 := by
  unfold decTc; split <;> simp [*]

theorem decTc_snd : c.decTc.2 = (c.decTc.1.tc == 0) := by
  unfold decTc; split <;> simp_all

theorem reg_decTc_ne {i : RegNum} (h1 : TC_MSB ≠ i) (h2 : TC_MID ≠ i) (h3 : TC_LSB ≠ i) :
    c.decTc.1.reg i = c.reg i := by
  unfold decTc; split
  · rfl
  · exact reg_setTc_ne c h1 h2 h3 _

@[simp] theorem phase_decTc : c.decTc.1.phase = c.phase := reg_decTc_ne c (by decide) (by decide) (by decide)

/-! ### The current target (10_state.md R30) -/

theorem target_eq_some {t : Target} (h : c.target = some t) :
    ∃ i, c.curTarget = some i ∧ c.targetAt i = some t := by
  unfold target at h
  cases hc : c.curTarget with
  | none => simp [hc] at h
  | some i => exact ⟨i, rfl, by simpa [hc] using h⟩

theorem setTarget_eq {i : Fin 8} (h : c.curTarget = some i) (t : Target) :
    c.setTarget t = { c with targets := c.targets.set i.val (some t) } := by
  unfold setTarget; simp [h]

theorem target_setTarget {t₀ : Target} (h : c.target = some t₀) (t : Target) : (c.setTarget t).target = some t := by
  obtain ⟨i, hi, -⟩ := c.target_eq_some h
  simp [target, setTarget_eq c hi, hi, targetAt]

theorem setTarget_setTarget (t u : Target) : (c.setTarget t).setTarget u = c.setTarget u := by
  unfold setTarget; cases h : c.curTarget <;> simp [h]

/-- Writing the target that is there changes nothing. -/
theorem setTarget_self {t : Target} (h : c.target = some t) : c.setTarget t = c := by
  obtain ⟨i, hi, ht⟩ := c.target_eq_some h
  have ht : c.targets[i.val] = some t := ht
  rw [setTarget_eq c hi, ← ht]; simp

/-- The current target depends on `curTarget` and `targets` alone. -/
theorem target_congr {c d : Controller} (h1 : c.curTarget = d.curTarget) (h2 : c.targets = d.targets) :
    c.target = d.target := by
  unfold target; rw [h1]; cases d.curTarget <;> simp [targetAt, h2]

@[simp] theorem target_setReg (i : RegNum) (v : Byte) : (c.setReg i v).target = c.target := rfl
@[simp] theorem target_setTc (v : Count) : (c.setTc v).target = c.target := rfl
@[simp] theorem target_setPhase (v : Byte) : (c.setPhase v).target = c.target := rfl
@[simp] theorem target_post (st : Byte) (d : Nat) : (c.post st d).target = c.target := rfl
@[simp] theorem target_mirror (b : Byte) : (c.mirror b).target = c.target := rfl
@[simp] theorem target_decTc : c.decTc.1.target = c.target := target_congr (by simp) (by simp)

@[simp] theorem setTarget_reg (t : Target) (i : RegNum) : (c.setTarget t).reg i = c.reg i := reg_congr (by simp) i
@[simp] theorem setTarget_tc (t : Target) : (c.setTarget t).tc = c.tc := tc_congr (by simp)
@[simp] theorem setTarget_phase (t : Target) : (c.setTarget t).phase = c.phase := phase_congr (by simp)
@[simp] theorem mirror_reg (b : Byte) (i : RegNum) : (c.mirror b).reg i = c.reg i := rfl
@[simp] theorem mirror_tc (b : Byte) : (c.mirror b).tc = c.tc := rfl
@[simp] theorem mirror_phase (b : Byte) : (c.mirror b).phase = c.phase := rfl
@[simp] theorem post_reg (st : Byte) (d : Nat) (i : RegNum) : (c.post st d).reg i = c.reg i := rfl
@[simp] theorem post_tc (st : Byte) (d : Nat) : (c.post st d).tc = c.tc := rfl
@[simp] theorem post_phase (st : Byte) (d : Nat) : (c.post st d).phase = c.phase := rfl

end Controller

end Sys2Proof.Machine
end

