-- ==== Sys2Proof/Laws/Line.lean ====
section
/-! SUPPORT. The interrupt line (60_exceptions.md R350 to R355): what the folding changes, that a recompute is
idempotent, and when the line agrees with the state. -/

namespace Sys2Proof.Machine

theorem hasBit_setBits {w : Nat} (v m n : BitVec w) (h : m &&& n ≠ 0) : hasBit (setBits v m) n = true := by
  simp only [hasBit, setBits, bne_iff_ne, ne_eq]
  intro h0
  apply h
  apply BitVec.eq_of_getLsbD_eq
  intro i _
  have := congrArg (fun x => BitVec.getLsbD x i) h0
  simp only [BitVec.getLsbD_and, BitVec.getLsbD_or, BitVec.ofNat_eq_ofNat, BitVec.getLsbD_zero] at this ⊢
  revert this
  cases v.getLsbD i <;> cases m.getLsbD i <;> cases n.getLsbD i <;> simp

theorem setBits_setBits {w : Nat} (v m : BitVec w) : setBits (setBits v m) m = setBits v m := by
  simp [setBits, BitVec.or_assoc]

namespace Controller

/-- Folding twice is folding once. -/
theorem foldedIstr_idem (c : Controller) : c.foldLatch.foldedIstr = c.foldedIstr := by
  cases hv : c.cfg.variant <;> cases h : c.xtIrq || c.auxInt <;>
    simp only [foldedIstr, foldLatch, hv, h, setBits_setBits, if_true, Bool.false_eq_true, if_false]

theorem foldedGcntr_idem (c : Controller) : c.foldLatch.foldedGcntr = c.foldedGcntr := by
  cases hv : c.cfg.variant <;> cases h : c.auxInt <;>
    simp only [foldedGcntr, foldLatch, hv, h, setBits_setBits, if_true, Bool.false_eq_true, if_false]

theorem foldLatch_idem (c : Controller) : c.foldLatch.foldLatch = c.foldLatch := by
  rw [foldLatch, foldedIstr_idem, foldedGcntr_idem]; rfl

end Controller

/-- A second recompute changes nothing (R350). -/
theorem State.recompute_recompute (s : State) : s.recompute.recompute = s.recompute := by
  have h : (s.others.map Controller.foldLatch).map Controller.foldLatch = s.others.map Controller.foldLatch := by
    rw [List.map_map]
    exact List.map_congr_left fun c _ => c.foldLatch_idem
  simp only [State.recompute, Controller.foldLatch_idem, h]

theorem State.recompute_lineOk (s : State) : s.recompute.LineOk := s.recompute_recompute

/-- The line agrees with the state exactly when every latch is folded and the line is the OR of the contributions. -/
theorem State.lineOk_iff (s : State) :
    s.LineOk ↔ (∀ c ∈ s.controllers, c.foldLatch = c) ∧ s.irqLine = s.controllers.any Controller.contributes := by
  constructor
  · intro h
    have h : s.recompute = s := h
    have hc : s.ctl.foldLatch = s.ctl := congrArg State.ctl h
    have ho : s.others.map Controller.foldLatch = s.others := congrArg State.others h
    have hi := congrArg State.irqLine h
    refine ⟨fun c hm => ?_, ?_⟩
    · rcases List.mem_cons.mp hm with rfl | hm
      · exact hc
      · have := List.map_eq_map_iff.mp (ho.trans (List.map_id s.others).symm) c hm
        simpa using this
    · rw [← hi]; simp only [State.recompute, State.controllers, hc, ho]
  · rintro ⟨hf, hi⟩
    have hc : s.ctl.foldLatch = s.ctl := hf _ (List.mem_cons_self ..)
    have ho : s.others.map Controller.foldLatch = s.others := by
      conv_rhs => rw [← List.map_id s.others]
      exact List.map_congr_left fun c hm => hf c (List.mem_cons_of_mem _ hm)
    show s.recompute = s
    simp only [State.recompute, hc, ho]
    cases s; simp_all [State.controllers]

end Sys2Proof.Machine
end

