-- ==== Sys2Proof/Laws/Memory.lean ====
section
/-! SUPPORT. A byte of memory after a write, and the canonical form, which every memory operation keeps. -/

namespace Sys2Proof.Machine

namespace Memory

theorem find_put (m : Memory) (a b : Nat) (v : Byte) :
    find (put m a v) b = if a = b then some v else find m b := by
  induction m with
  | nil => simp [put, find, eq_comm]
  | cons e m ih =>
    obtain ⟨k, w⟩ := e
    unfold put
    split
    · simp [find, eq_comm]
    · split
      · subst_vars; simp only [find]; split <;> simp_all [eq_comm]
      · simp only [find, ih]; split <;> split <;> simp_all

theorem find_put_same (m : Memory) (a : Nat) (v : Byte) : find (put m a v) a = some v := by simp [find_put]

theorem find_put_ne (m : Memory) {a b : Nat} (h : a ≠ b) (v : Byte) : find (put m a v) b = find m b := by
  simp [find_put, h]

theorem mem_put {m : Memory} {a : Nat} {v : Byte} {e : Host.Cell} (h : e ∈ put m a v) : e = (a, v) ∨ e ∈ m := by
  induction m with
  | nil => simpa [put] using h
  | cons e' m ih =>
    obtain ⟨k, w⟩ := e'
    unfold put at h
    split at h
    · simpa using h
    · split at h
      · simp only [List.mem_cons] at h ⊢; tauto
      · simp only [List.mem_cons] at h ⊢
        rcases h with h | h
        · tauto
        · rcases ih h with h | h <;> tauto

theorem put_wf {m : Memory} (h : m.wf) (a : Nat) (v : Byte) : (put m a v).wf := by
  induction m with
  | nil => simp [put, wf]
  | cons e m ih =>
    obtain ⟨k, w⟩ := e
    have ⟨hk, hm⟩ := List.pairwise_cons.mp h
    unfold put
    split
    · refine List.pairwise_cons.mpr ⟨fun x hx => ?_, h⟩
      rcases List.mem_cons.mp hx with rfl | hx
      · assumption
      · exact lt_trans ‹a < k› (hk x hx)
    · split
      · subst_vars; exact List.pairwise_cons.mpr ⟨hk, hm⟩
      · refine List.pairwise_cons.mpr ⟨fun x hx => ?_, ih hm⟩
        rcases mem_put hx with rfl | hx
        · show k < a; omega
        · exact hk x hx

theorem putAll_wf (vs : List Byte) {m : Memory} (h : m.wf) (a : Nat) : (putAll m a vs).wf := by
  induction vs generalizing m a with
  | nil => exact h
  | cons v vs ih => exact ih (put_wf h a v) (a + 1)

/-- The bytes of a block written at `a`. -/
theorem find_putAll (vs : List Byte) (m : Memory) (a b : Nat) :
    find (putAll m a vs) b = if a ≤ b ∧ b < a + vs.length then vs[b - a]? else find m b := by
  induction vs generalizing m a with
  | nil => simp [putAll]
  | cons v vs ih =>
    rw [putAll, ih, find_put]
    by_cases h : a = b
    · subst h; simp
    · by_cases h1 : a + 1 ≤ b ∧ b < a + 1 + vs.length
      · rw [if_pos h1, if_pos (by simp; omega), show b - a = (b - (a + 1)) + 1 by omega]; simp
      · rw [if_neg h1, if_neg h, if_neg (by simp; omega)]

end Memory

/-- `MemWrite` keeps the canonical form. -/
theorem State.memWrite_wf {s : State} (h : s.mem.wf) (a : Word) (v : Byte) : (s.memWrite a v).mem.wf := by
  unfold State.memWrite; split
  · exact Memory.put_wf h _ _
  · exact h

/-- `MemWrite` to another address leaves a byte alone. -/
theorem State.memByte_memWrite_ne (s : State) {a b : Word} (h : a ≠ b) (v : Byte) :
    (s.memWrite a v).memByte b = s.memByte b := by
  have hn : a.toNat ≠ b.toNat := fun e => h (BitVec.eq_of_toNat_eq e)
  unfold State.memWrite; split
  · simp [State.memByte, State.decodes, Memory.find_put_ne _ hn]
  · rfl

/-- A byte written where something decodes is read back. -/
theorem State.memByte_memWrite_same (s : State) {a : Word} (h : s.decodes a) (v : Byte) :
    (s.memWrite a v).memByte a = some v := by
  have h' : State.decodes { s with mem := Memory.put s.mem a.toNat v } a = true := h
  simp [State.memWrite, h, State.memByte, h', Memory.find_put_same]

end Sys2Proof.Machine
end

