-- ==== Sys2Proof/Laws/Acts.lean ====
section
/-! SUPPORT. `Acts s t`: what every operation of the acting controller keeps, said once. Each shared operation of the
machine has its lemma here or in Laws/Commands.lean. -/

namespace Sys2Proof.Machine

/-- `t` comes from `s` by an operation of the acting controller: it stays sound, keeps its number and parameters, host
memory stays canonical, the other controllers' latches fold at most, and the schedule is not touched. -/
structure Acts (s t : State) : Prop where
  ok       : s.ctl.ok → t.ctl.ok
  slot     : t.ctl.slot = s.ctl.slot
  cfg      : t.ctl.cfg = s.ctl.cfg
  mem      : Memory.wf s.mem → Memory.wf t.mem
  others   : t.others = s.others ∨ t.others = s.others.map Controller.foldLatch
  memMap   : t.memMap = s.memMap
  turns    : t.turns = s.turns
  hostOps  : t.hostOps = s.hostOps
  hostHeld : t.hostHeld = s.hostHeld
  hostData : t.hostData = s.hostData

namespace Acts

theorem refl (s : State) : Acts s s := ⟨id, rfl, rfl, id, .inl rfl, rfl, rfl, rfl, rfl, rfl⟩

theorem trans {s t u : State} (h : Acts s t) (k : Acts t u) : Acts s u where
  ok := k.ok ∘ h.ok
  slot := k.slot.trans h.slot
  cfg := k.cfg.trans h.cfg
  mem := k.mem ∘ h.mem
  others := by
    rcases h.others with e | e <;> rcases k.others with e' | e'
    · exact .inl (e'.trans e)
    · exact .inr (by rw [e', e])
    · exact .inr (by rw [e', e])
    · refine .inr ?_
      rw [e', e, List.map_map]
      exact List.map_congr_left fun c _ => c.foldLatch_idem
  memMap := k.memMap.trans h.memMap
  turns := k.turns.trans h.turns
  hostOps := k.hostOps.trans h.hostOps
  hostHeld := k.hostHeld.trans h.hostHeld
  hostData := k.hostData.trans h.hostData

/-- An update of the acting controller that keeps it sound. -/
theorem upd (s : State) {f : Controller → Controller} (hok : s.ctl.ok → (f s.ctl).ok)
    (hslot : (f s.ctl).slot = s.ctl.slot) (hcfg : (f s.ctl).cfg = s.ctl.cfg) : Acts s (s.upd f) :=
  ⟨hok, hslot, hcfg, id, .inl rfl, rfl, rfl, rfl, rfl, rfl⟩

/-- A free value is drawn. -/
theorem draw (s : State) (n : Nat) : Acts s { s with draws := n } := ⟨id, rfl, rfl, id, .inl rfl, rfl, rfl, rfl, rfl, rfl⟩

end Acts

namespace Controller

/-- `d` has the fields of `c` that `ok` reads. -/
structure SameOk (c d : Controller) : Prop where
  cfg     : d.cfg = c.cfg
  queue   : d.queue = c.queue
  qIndex  : d.qIndex = c.qIndex
  cmdq    : d.cmdq = c.cmdq
  gaddr   : d.gaddr = c.gaddr
  sramOff : d.sramOff = c.sramOff
  istr    : d.istr = c.istr
  scratch : d.scratch = c.scratch
  sram    : d.sram = c.sram
  targets : d.targets = c.targets

theorem SameOk.ok {c d : Controller} (h : SameOk c d) (hc : c.ok) : d.ok := by
  obtain ⟨h1, h2, h3, h4, h5, h6, h7, h8, h9, h10⟩ := h
  simp only [Controller.ok, queueOk, cmdqOk, dmaOk, bytesOk, targetAt, h1, h2, h3, h4, h5, h6, h7, h8, h9, h10] at hc ⊢
  exact hc

theorem SameOk.rfl' (c : Controller) : SameOk c c := ⟨rfl, rfl, rfl, rfl, rfl, rfl, rfl, rfl, rfl, rfl⟩

theorem setPhase_same (c : Controller) (v : Byte) : SameOk c (c.setPhase v) :=
  ⟨rfl, rfl, rfl, rfl, rfl, rfl, rfl, rfl, rfl, rfl⟩

theorem setReg_same (c : Controller) (i : RegNum) (v : Byte) : SameOk c (c.setReg i v) :=
  ⟨rfl, rfl, rfl, rfl, rfl, rfl, rfl, rfl, rfl, rfl⟩

theorem setTc_same (c : Controller) (v : Count) : SameOk c (c.setTc v) :=
  ⟨rfl, rfl, rfl, rfl, rfl, rfl, rfl, rfl, rfl, rfl⟩

theorem decTc_same (c : Controller) : SameOk c c.decTc.1 := by constructor <;> simp

theorem SameOk.trans {c d e : Controller} (h : SameOk c d) (k : SameOk d e) : SameOk c e :=
  ⟨k.cfg.trans h.cfg, k.queue.trans h.queue, k.qIndex.trans h.qIndex, k.cmdq.trans h.cmdq, k.gaddr.trans h.gaddr,
   k.sramOff.trans h.sramOff, k.istr.trans h.istr, k.scratch.trans h.scratch, k.sram.trans h.sram,
   k.targets.trans h.targets⟩

theorem legal_pos {c : Controller} (h : c.ok) : 1 ≤ c.cfg.qcap ∧ 1 ≤ c.cfg.cmdqCap ∧ 1 ≤ c.cfg.sramSize := by
  have := h.1
  simp only [paramsLegal, Bool.and_eq_true, decide_eq_true_eq] at this
  exact ⟨this.1.1.1.1.1, this.1.1.1.1.2, this.1.1.1.2⟩

theorem ok_post {c : Controller} (h : c.ok) (st : Byte) (d : Nat) : (c.post st d).ok := by
  have hp := (legal_pos h).1
  obtain ⟨h1, ⟨h2, h3⟩, h4, h5, h6⟩ := h
  exact ⟨h1, ⟨by simpa [post] using h2, Nat.mod_lt _ hp⟩, h4, h5, h6⟩

theorem ok_mirror {c : Controller} (h : c.ok) (b : Byte) : (c.mirror b).ok := by
  obtain ⟨h1, h2, h4, h5, h6, h7, h8⟩ := h
  refine ⟨h1, h2, h4, h5, ?_, h7, h8⟩
  show Memory.wf (if c.scratchOff < c.cfg.scratchSize then Memory.put c.scratch c.scratchOff b else c.scratch)
  split
  · exact Memory.put_wf h6 _ _
  · exact h6

theorem ok_setTarget {c : Controller} (h : c.ok) {t : Target} (ht : Memory.wf t.data) : (c.setTarget t).ok := by
  unfold setTarget
  split
  · exact h
  · rename_i i _
    obtain ⟨h1, h2, h4, h5, h6, h7, h8⟩ := h
    refine ⟨h1, h2, h4, h5, h6, h7, fun j u hu => ?_⟩
    have hu : (c.targets.set i.val (some t))[j.val] = some u := hu
    rw [Vector.getElem_set] at hu
    split at hu
    · cases hu; exact ht
    · exact h8 j u hu

theorem ok_target {c : Controller} (h : c.ok) {t : Target} (ht : c.target = some t) : Memory.wf t.data := by
  obtain ⟨i, -, hi⟩ := c.target_eq_some ht
  exact h.2.2.2.2.2.2 i t hi

theorem foldLatch_slot (c : Controller) : c.foldLatch.slot = c.slot := rfl
theorem foldLatch_cfg (c : Controller) : c.foldLatch.cfg = c.cfg := rfl

theorem istr_setBits {v m : Byte} (h : v &&& 0x9F = 0) (hm : m &&& 0x9F = 0) : setBits v m &&& 0x9F = 0 := by
  unfold setBits
  apply BitVec.eq_of_getLsbD_eq
  intro i _
  have a := congrArg (fun x => BitVec.getLsbD x i) h
  have b := congrArg (fun x => BitVec.getLsbD x i) hm
  simp only [BitVec.getLsbD_and, BitVec.getLsbD_or, BitVec.ofNat_eq_ofNat, BitVec.getLsbD_zero] at a b ⊢
  revert a b
  cases v.getLsbD i <;> cases m.getLsbD i <;> cases (159#8).getLsbD i <;> simp

theorem istr_clearBits {v : Byte} (m : Byte) (h : v &&& 0x9F = 0) : clearBits v m &&& 0x9F = 0 := by
  unfold clearBits
  apply BitVec.eq_of_getLsbD_eq
  intro i hi
  have a := congrArg (fun x => BitVec.getLsbD x i) h
  simp only [BitVec.getLsbD_and, BitVec.ofNat_eq_ofNat, BitVec.getLsbD_zero] at a ⊢
  revert a
  cases v.getLsbD i <;> cases (159#8).getLsbD i <;> simp

/-- An `istr` that keeps its zero bits keeps the controller sound. -/
theorem ok_istr {c : Controller} (h : c.ok) {v : Byte} (hv : v &&& 0x9F = 0) : { c with istr := v }.ok := by
  obtain ⟨h1, h2, h4, ⟨h5, h6, -⟩, h7⟩ := h
  exact ⟨h1, h2, h4, ⟨h5, h6, hv⟩, h7⟩

theorem ok_foldLatch {c : Controller} (h : c.ok) : c.foldLatch.ok := by
  have hi : c.foldedIstr &&& 0x9F = 0 := by
    unfold foldedIstr; split
    · split
      · exact istr_setBits h.2.2.2.1.2.2 (by decide)
      · exact h.2.2.2.1.2.2
    · split
      · exact istr_setBits h.2.2.2.1.2.2 (by decide)
      · exact h.2.2.2.1.2.2
    all_goals exact h.2.2.2.1.2.2
  exact SameOk.ok (c := { c with istr := c.foldedIstr }) ⟨rfl, rfl, rfl, rfl, rfl, rfl, rfl, rfl, rfl, rfl⟩ (ok_istr h hi)

end Controller

namespace Acts

theorem recompute (s : State) : Acts s s.recompute :=
  ⟨Controller.ok_foldLatch, s.ctl.foldLatch_slot, s.ctl.foldLatch_cfg, id, .inr rfl, rfl, rfl, rfl, rfl, rfl⟩

theorem same (s : State) {f : Controller → Controller} (h : Controller.SameOk s.ctl (f s.ctl))
    (hslot : (f s.ctl).slot = s.ctl.slot) : Acts s (s.upd f) := upd s h.ok hslot h.cfg

theorem post (s : State) (st : Byte) (d : Controller → Nat) : Acts s (s.upd fun c => c.post st (d c)) :=
  upd s (fun h => Controller.ok_post h _ _) rfl rfl

/-- A post after a change that `ok` does not read. -/
theorem postAfter (s : State) (g : Controller → Controller) (st : Byte) (d : Controller → Nat)
    (h : Controller.SameOk s.ctl (g s.ctl)) (hslot : (g s.ctl).slot = s.ctl.slot) :
    Acts s (s.upd fun c => (g c).post st (d c)) :=
  upd s (fun hc => Controller.ok_post (h.ok hc) _ _) hslot h.cfg

theorem orDraw (s : State) (v : Option Byte) : Acts s (s.orDraw v).1 := by
  unfold State.orDraw; split
  · exact refl s
  · exact draw s _

theorem memWrite (s : State) (a : Word) (v : Byte) : Acts s (s.memWrite a v) := by
  have := @State.memWrite_wf s
  unfold State.memWrite at this ⊢; split
  · exact ⟨id, rfl, rfl, fun h => Memory.put_wf h _ _, .inl rfl, rfl, rfl, rfl, rfl, rfl⟩
  · exact refl s

/-- The current target changes and keeps its data canonical. -/
theorem setTarget (s : State) {t₀ t : Target} (h₀ : s.target = some t₀) (h : Memory.wf t₀.data → Memory.wf t.data) :
    Acts s (s.upd fun c => c.setTarget t) :=
  upd s (fun hc => Controller.ok_setTarget hc (h (Controller.ok_target hc h₀))) (by simp) (by simp)

theorem modTarget (s : State) {f : Target → Target} (h : ∀ t, Memory.wf t.data → Memory.wf (f t).data) :
    Acts s (s.modTarget f) := by
  unfold State.modTarget; split
  · exact refl s
  · exact setTarget s ‹_› (h _)

theorem beginTarget (s : State) : Acts s s.beginTarget := modTarget s fun _ h => h

theorem analyze_fst (s : State) (t : Target) : ∃ n, (s.analyze t).1 = { s with draws := n } := by
  unfold State.analyze; split
  · exact ⟨s.draws, rfl⟩
  · exact ⟨_, rfl⟩

theorem analyze_data (s : State) (t : Target) : (s.analyze t).2.data = t.data := by
  unfold State.analyze; split <;> rfl

theorem execute_fst (s : State) (t : Target) : ∃ n, (s.execute t).1 = { s with draws := n } := by
  unfold State.execute; split
  · exact ⟨s.draws, rfl⟩
  · exact ⟨_, rfl⟩

theorem execute_data (s : State) (t : Target) (h : Memory.wf t.data) : Memory.wf (s.execute t).2.data := by
  have h0 : Memory.wf [] := List.Pairwise.nil
  unfold State.execute; split <;> dsimp only <;> split
  all_goals first | exact Memory.putAll_wf _ h0 _ | exact h

theorem analyzeTarget (s : State) : Acts s s.analyzeTarget := by
  unfold State.analyzeTarget; split
  · exact refl s
  · rename_i t ht
    obtain ⟨n, hn⟩ := analyze_fst s t
    rw [hn]
    exact (draw s n).trans (setTarget { s with draws := n } (t₀ := t) ht (by rw [analyze_data]; exact id))

theorem executeTarget (s : State) : Acts s s.executeTarget := by
  unfold State.executeTarget; split
  · exact refl s
  · rename_i t ht
    obtain ⟨n, hn⟩ := execute_fst s t
    rw [hn]
    exact (draw s n).trans (setTarget { s with draws := n } (t₀ := t) ht (execute_data s t))

theorem recv_data (s : State) (t : Target) (p : Byte) : (s.recv t p).2.1.data = t.data := by
  simp only [State.recv, State.recvByte]
  split
  · rfl
  · split
    · split <;> rfl
    · rfl

theorem recv_fst (s : State) (t : Target) (p : Byte) : ∃ n, (s.recv t p).1 = { s with draws := n } := by
  simp only [State.recv, State.recvByte]
  split
  · exact ⟨_, rfl⟩
  · split
    · split
      · exact ⟨_, rfl⟩
      · exact ⟨_, rfl⟩
    · unfold State.orDraw; split <;> exact ⟨_, rfl⟩

theorem send_data (t : Target) (b : Byte) (h : Memory.wf t.data) : Memory.wf (t.send b).1.data := by
  unfold Target.send; dsimp only; split
  · exact h
  · exact Memory.put_wf h _ _

end Acts

end Sys2Proof.Machine
end

