-- ==== Sys2Proof/Laws/Commands.lean ====
section
/-! SUPPORT. `Acts` for the shared operations of the pumps, the callbacks, the chip commands and the tick. -/

namespace Sys2Proof.Machine

namespace Acts

/-- A change of the acting controller that `ok` does not read. -/
theorem flags (s : State) (f : Controller → Controller) (h : Controller.SameOk s.ctl (f s.ctl))
    (hslot : (f s.ctl).slot = s.ctl.slot) : Acts s (s.upd f) := same s h hslot

theorem setPhase (s : State) (v : Byte) : Acts s (s.upd fun c => c.setPhase v) :=
  same s (Controller.setReg_same _ _ _) rfl

/-! ### The pumps (44_dma_engines.md) -/

theorem wtcStep (s : State) : Acts s s.wtcStep := by
  unfold State.wtcStep; dsimp only
  split
  · split
    · refine (upd s (f := fun c => { c with wtc := c.wtc - 1, istr := setBits c.istr ISTR_E_INT }) (fun h => ?_) rfl
        rfl).trans (recompute _)
      exact Controller.SameOk.ok (c := { s.ctl with istr := setBits s.ctl.istr ISTR_E_INT })
        ⟨rfl, rfl, rfl, rfl, rfl, rfl, rfl, rfl, rfl, rfl⟩
        (Controller.ok_istr h (Controller.istr_setBits h.2.2.2.1.2.2 (by decide)))
    · exact same s ⟨rfl, rfl, rfl, rfl, rfl, rfl, rfl, rfl, rfl, rfl⟩ rfl
  · exact refl s

/-- A change of `sram` that keeps it canonical. -/
theorem sram (s : State) {m : Memory} (h : Memory.wf s.ctl.sram → Memory.wf m) :
    Acts s (s.upd fun c => { c with sram := m }) :=
  upd s (fun ⟨h1, h2, h4, h5, h6, h7, h8⟩ => ⟨h1, h2, h4, h5, h6, h h7, h8⟩) rfl rfl

theorem pumpStore (s : State) (b : Byte) : Acts s (s.pumpStore b) := by
  unfold State.pumpStore; split
  · exact memWrite s _ _
  · exact memWrite s _ _
  · exact sram s fun h => Memory.put_wf h _ _
  · exact memWrite s _ _
  · exact refl s

theorem pumpFetch (s : State) : Acts s s.pumpFetch.1 := by
  unfold State.pumpFetch; split
  · exact orDraw s _
  · exact orDraw s _
  · exact orDraw s _
  · exact orDraw s _
  · exact draw s _

theorem mask_idem (a m : Word) : a &&& m &&& m = a &&& m := by rw [BitVec.and_assoc, BitVec.and_self]

theorem pumpAdvance (s : State) (inbound : Bool) : Acts s (s.pumpAdvance inbound) := by
  unfold State.pumpAdvance
  split
  · exact (same s ⟨rfl, rfl, rfl, rfl, rfl, rfl, rfl, rfl, rfl, rfl⟩ rfl).trans (wtcStep _)
  · exact (same s ⟨rfl, rfl, rfl, rfl, rfl, rfl, rfl, rfl, rfl, rfl⟩ rfl).trans (wtcStep _)
  · refine upd s (fun h => ?_) rfl rfl
    have hp := (Controller.legal_pos h).2.2
    obtain ⟨h1, h2, h4, ⟨h5, -, h6⟩, h7⟩ := h
    refine ⟨h1, h2, h4, ⟨?_, Nat.mod_lt _ hp, h6⟩, h7⟩
    cases inbound
    · exact mask_idem _ _
    · exact h5
  · refine upd s (fun ⟨h1, h2, h4, ⟨_, h5, h6⟩, h7⟩ => ⟨h1, h2, h4, ⟨mask_idem _ _, h5, h6⟩, h7⟩) rfl rfl
  · exact refl s

theorem decTc (s : State) : Acts s (s.upd fun c => c.decTc.1) := same s (Controller.decTc_same _) (by simp)

theorem mirror (s : State) (b : Byte) : Acts s (s.upd fun c => c.mirror b) :=
  upd s (fun h => Controller.ok_mirror h b) rfl rfl

theorem pumpCount (s : State) (inbound : Bool) (b : Byte) (ended : Bool) :
    Acts s (s.pumpCount inbound b ended).1 :=
  ((mirror s b).trans (pumpAdvance _ inbound)).trans (decTc _)

/-- `T.recv()`, the target written back. -/
theorem recv (s : State) (t : Target) (p : Byte) (ht : s.target = some t) :
    Acts s ((s.recv t p).1.upd fun c => c.setTarget (s.recv t p).2.1) := by
  have hd := recv_data s t p
  obtain ⟨n, hn⟩ := recv_fst s t p
  rw [hn]
  exact (draw s n).trans (setTarget { s with draws := n } (t₀ := t) ht (by rw [hd]; exact id))

theorem pumpByte (s : State) (t : Target) (ht : s.target = some t) : Acts s (s.pumpByte t).1 := by
  unfold State.pumpByte; split
  · exact ((recv s t _ ht).trans (pumpStore _ _)).trans (pumpCount _ _ _ _)
  · have hf : s.pumpFetch.1.target = some t := by
      rw [← ht]
      unfold State.pumpFetch State.memRead State.orDraw State.drawByte
      split <;> first | rfl | (split <;> rfl)
    exact ((pumpFetch s).trans (setTarget _ (t₀ := t) hf (send_data t _))).trans (pumpCount _ _ _ _)

theorem pumpLoop (n : Nat) (s : State) : Acts s (State.pumpLoop n s) := by
  induction n generalizing s with
  | zero => exact refl s
  | succ n ih =>
    unfold State.pumpLoop; split
    · exact refl s
    · rename_i t ht
      split
      · exact pumpByte s t ht
      · exact (pumpByte s t ht).trans (ih _)

theorem pump (s : State) : Acts s s.pump.1 := by
  unfold State.pump; split
  · exact refl s
  · split
    · exact refl s
    · split
      · exact refl s
      · split
        · exact refl s
        · exact pumpLoop _ _

/-! ### The callbacks (43_transfer_callbacks.md) -/

theorem advanceTail (s : State) (next st : Byte) : Acts s (s.upd fun c => (c.setPhase next).advanceTail st) :=
  upd s (fun h => Controller.SameOk.ok (c := (((s.ctl.setPhase next).setTc 0).post st 1))
    ⟨rfl, rfl, rfl, rfl, rfl, rfl, rfl, rfl, rfl, rfl⟩
    (Controller.ok_post (((Controller.setReg_same _ _ _).trans (Controller.setTc_same _ _)).ok h) st 1)) rfl rfl

theorem messageSent (s : State) : Acts s s.messageSent := by
  unfold State.messageSent; dsimp only
  exact ((orDraw s (Memory.find s.ctl.scratch 0)).trans (modTarget _
    (f := fun t => { t with identify := (s.orDraw (Memory.find s.ctl.scratch 0)).2, status := 0, offset := 0 })
    fun _ h => h)).trans (advanceTail _ PHASE_MESSAGE_SENT (CSR_XFER_DONE + PHS_COMMAND))

theorem commandAnalyzed (s : State) (t : Target) : Acts s (s.commandAnalyzed t) := by
  unfold State.commandAnalyzed; split
  · exact (beginTarget s).trans (advanceTail _ _ _)
  · dsimp only; split
    · exact executeTarget s
    · split
      · exact ((executeTarget s).trans (beginTarget _)).trans (advanceTail _ _ _)
      · exact ((executeTarget s).trans (beginTarget _)).trans (advanceTail _ _ _)

theorem commandSent (s : State) : Acts s s.commandSent := by
  unfold State.commandSent; split
  · exact refl s
  · exact (analyzeTarget s).trans (commandAnalyzed _ _)

theorem dataSent (s : State) (t : Target) : Acts s (s.dataSent t) := by
  unfold State.dataSent
  refine Acts.trans (t := if t.direction.isOut then s.executeTarget else s) ?_ ((beginTarget _).trans (advanceTail _ _ _))
  split
  · exact executeTarget s
  · exact refl s

theorem transferOut (s : State) : Acts s s.transferOut.1 := by
  unfold State.transferOut; split
  · exact refl s
  · split
    · exact messageSent s
    · split
      · exact commandSent s
      · split
        · split
          · exact post s _ fun c => c.cfg.tRetryOut
          · exact dataSent s _
        · exact refl s

theorem inAdvance (s : State) (next st : Byte) : Acts s (s.inAdvance next st) :=
  (beginTarget s).trans (advanceTail _ _ _)

theorem transferIn (s : State) (m : Bool) : Acts s (s.transferIn m).1 := by
  unfold State.transferIn; split
  · exact refl s
  · dsimp only
    have h0 : Acts s (s.upd fun c => { c with scratchOff := 0 }) :=
      same s ⟨rfl, rfl, rfl, rfl, rfl, rfl, rfl, rfl, rfl, rfl⟩ rfl
    split
    · split
      · exact h0.trans (post _ _ fun c => c.cfg.tRetryIn)
      · exact h0.trans (inAdvance _ _ _)
    · split
      · exact h0.trans (inAdvance _ _ _)
      · split
        · split
          · exact h0.trans (post _ _ fun c => c.cfg.tRetryIn)
          · exact (h0.trans (same _ (f := fun c => { c with selected := false })
              ⟨rfl, rfl, rfl, rfl, rfl, rfl, rfl, rfl, rfl, rfl⟩ rfl)).trans (inAdvance _ _ _)
        · exact h0

/-! ### The chip commands (42_chip_commands.md) -/

theorem zeroRegs_same (rs : List RegNum) (c : Controller) :
    Controller.SameOk c (c.zeroRegs rs) ∧ (c.zeroRegs rs).slot = c.slot := by
  induction rs generalizing c with
  | nil => exact ⟨⟨rfl, rfl, rfl, rfl, rfl, rfl, rfl, rfl, rfl, rfl⟩, rfl⟩
  | cons r rs ih => exact ⟨(Controller.setReg_same c r 0).trans (ih (c.setReg r 0)).1, (ih (c.setReg r 0)).2⟩

theorem ok_resetChip {c : Controller} (h : c.ok) : c.resetChip.ok := by
  unfold Controller.resetChip
  generalize hd : c.zeroRegs resetRegs = d
  have hz : Controller.SameOk c d := hd ▸ (zeroRegs_same resetRegs c).1
  have hp := (Controller.legal_pos (hz.ok h)).1
  obtain ⟨h1, ⟨h2, -⟩, h4⟩ := hz.ok h
  refine ⟨h1, ⟨?_, hp⟩, h4⟩
  rw [List.length_map, ← hz.queue]
  exact h2

theorem resetChip (s : State) : Acts s (s.upd Controller.resetChip) := by
  have hz := zeroRegs_same resetRegs s.ctl
  refine upd s ok_resetChip ?_ ?_ <;> unfold Controller.resetChip <;>
    generalize Controller.zeroRegs s.ctl resetRegs = d at hz ⊢
  · exact hz.2
  · exact hz.1.cfg

theorem resetProc (s : State) (irq : Bool) : Acts s (s.resetProc irq) := by
  unfold State.resetProc; cases irq
  · exact (resetChip s).trans (recompute _)
  · exact ((resetChip s).trans (post _ _ fun c => c.cfg.tReset)).trans (recompute _)

theorem select (s : State) (atn : Bool) : Acts s (s.select atn) := by
  unfold State.select; dsimp only
  have h0 := setPhase s PHASE_IDLE
  generalize s.upd (fun c => c.setPhase PHASE_IDLE) = u at h0 ⊢
  split
  · exact h0.trans (postAfter u (fun c => { c with curTarget := none }) CSR_TIMEOUT (fun c => c.cfg.tTimeout)
      ⟨rfl, rfl, rfl, rfl, rfl, rfl, rfl, rfl, rfl, rfl⟩ rfl)
  · rename_i id _
    have h1 := (h0.trans (same u (f := fun c => { c with curTarget := some id })
      ⟨rfl, rfl, rfl, rfl, rfl, rfl, rfl, rfl, rfl, rfl⟩ rfl)).trans (beginTarget _)
    generalize State.beginTarget (u.upd fun c => { c with curTarget := some id }) = v at h1 ⊢
    have h2 := h1.trans (postAfter v (fun c => { c with selected := true }) CSR_SELECT (fun c => c.cfg.tSel1)
      ⟨rfl, rfl, rfl, rfl, rfl, rfl, rfl, rfl, rfl, rfl⟩ rfl)
    generalize v.upd (fun c => { c with selected := true }.post CSR_SELECT c.cfg.tSel1) = w at h2 ⊢
    split
    · exact h2.trans (postAfter w (fun c => c.setPhase PHASE_MESSAGE_OUT) _ (fun c => c.cfg.tSel2) (Controller.setPhase_same _ _) rfl)
    · exact h2.trans (postAfter w (fun c => c.setPhase PHASE_COMMAND) _ (fun c => c.cfg.tSel2) (Controller.setPhase_same _ _) rfl)

theorem mirror_foldl (g : Nat → Byte) (l : List Nat) (c : Controller) (h : c.ok) :
    (l.foldl (fun c i => c.mirror (g i)) c).ok := by
  induction l generalizing c with
  | nil => exact h
  | cons i l ih => exact ih _ (Controller.ok_mirror h _)

theorem mirror_foldl_slot (g : Nat → Byte) (l : List Nat) (c : Controller) :
    (l.foldl (fun c i => c.mirror (g i)) c).slot = c.slot ∧ (l.foldl (fun c i => c.mirror (g i)) c).cfg = c.cfg := by
  induction l generalizing c with
  | nil => exact ⟨rfl, rfl⟩
  | cons i l ih => exact ih _

theorem xferCommand (s : State) : Acts s s.xferCommand := by
  unfold State.xferCommand; dsimp only
  have h1 : Acts s (s.modTarget fun t => { t with status := 0, cmd := s.ctl.cdbInto t.cmd }) := modTarget s fun _ h => h
  have h2 := (h1.trans (analyzeTarget _)).trans (beginTarget _)
  split
  · exact h2
  · refine h2.trans (upd _ (fun h => ?_) ?_ ?_)
    · refine ((Controller.setReg_same _ _ _).trans (Controller.setTc_same _ _)).ok (mirror_foldl _ _ _ ?_)
      exact Controller.SameOk.ok ⟨rfl, rfl, rfl, rfl, rfl, rfl, rfl, rfl, rfl, rfl⟩ h
    · exact (mirror_foldl_slot _ _ _).1
    · exact (mirror_foldl_slot _ _ _).2

theorem xferSelected (s : State) (atn : Bool) (id : Fin 8) : Acts s (s.xferSelected atn id) := by
  unfold State.xferSelected; dsimp only
  have h1 : Acts s (s.upd fun c => { c with curTarget := some id }) :=
    same s ⟨rfl, rfl, rfl, rfl, rfl, rfl, rfl, rfl, rfl, rfl⟩ rfl
  generalize s.upd (fun c => { c with curTarget := some id }) = u at h1 ⊢
  have h2 : Acts s (if u.ctl.selected then u
      else u.upd fun c => { c with selected := true }.setPhase (if atn then PHASE_MESSAGE_OUT else PHASE_COMMAND)) := by
    split
    · exact h1
    · exact h1.trans (same _ ⟨rfl, rfl, rfl, rfl, rfl, rfl, rfl, rfl, rfl, rfl⟩ rfl)
  generalize (if u.ctl.selected then u
      else u.upd fun c => { c with selected := true }.setPhase (if atn then PHASE_MESSAGE_OUT else PHASE_COMMAND)) = v at h2 ⊢
  split
  · exact h2.trans (xferCommand _)
  · exact h2

theorem xferExecute (s : State) (t : Target) : Acts s (s.xferExecute t) := by
  unfold State.xferExecute; split
  · have h1 : Acts s (if t.direction.isOut then s else s.executeTarget) := by
      split
      · exact refl s
      · exact executeTarget s
    exact (h1.trans (beginTarget _)).trans (setPhase _ _)
  · exact refl s

theorem xferPumped (s : State) (d : Direction) : Acts s (s.xferPumped d).1 := by
  unfold State.xferPumped; dsimp only; split
  · exact pump s
  · split
    · exact (pump s).trans (post _ _ fun _ => 1)
    · have h1 : Acts s (if d.isOut then s.pump.1.executeTarget else s.pump.1) := by
        split
        · exact (pump s).trans (executeTarget _)
        · exact pump s
      generalize (if d.isOut then s.pump.1.executeTarget else s.pump.1) = u at h1 ⊢
      split
      · exact h1
      · exact h1.trans (postAfter _ (fun c => c.setPhase PHASE_STATUS) _ (fun _ => 1) (Controller.setPhase_same _ _) rfl)

theorem xferData (s : State) (t : Target) : Acts s (s.xferData t).1 := by
  unfold State.xferData; split
  · exact post s _ fun _ => 1
  · split
    · exact post s _ fun _ => 1
    · split
      · exact post s _ fun _ => 1
      · exact xferPumped s _

theorem xferDataPhase (s : State) (tc0 : Count) (t : Target) : Acts s (s.xferDataPhase tc0 t).1 := by
  unfold State.xferDataPhase; split
  · dsimp only
    have h1 : Acts s (s.upd fun c => { c with scratchOff := 0 }.setTc tc0) :=
      same s ⟨rfl, rfl, rfl, rfl, rfl, rfl, rfl, rfl, rfl, rfl⟩ rfl
    generalize s.upd (fun c => { c with scratchOff := 0 }.setTc tc0) = u at h1 ⊢
    have h2 : Acts s (if t.hasData then u.xferData t else (u, false)).1 := by
      split
      · exact h1.trans (xferData _ _)
      · exact h1
    generalize (if t.hasData then u.xferData t else (u, false)) = r at h2 ⊢
    split
    · exact h2
    · exact h2.trans (setPhase _ _)
  · exact refl s

theorem xferStatus (s : State) (t : Target) : Acts s (s.xferStatus t) := by
  unfold State.xferStatus; split
  · exact same s ((Controller.setReg_same _ _ _).trans (Controller.setReg_same _ _ _)) rfl
  · exact refl s

theorem xferComplete (s : State) : Acts s s.xferComplete := by
  unfold State.xferComplete
  have h0 : Controller.SameOk s.ctl ({ s.ctl with selected := false }.setPhase PHASE_COMPLETE) :=
    ⟨rfl, rfl, rfl, rfl, rfl, rfl, rfl, rfl, rfl, rfl⟩
  refine upd s (fun h => ?_) ?_ ?_ <;> dsimp only <;> split
  · exact Controller.ok_post (h0.ok h) _ _
  · exact Controller.ok_post (Controller.ok_post (h0.ok h) _ _) _ _
  all_goals rfl

theorem selXfer (s : State) (atn : Bool) : Acts s (s.selXfer atn) := by
  unfold State.selXfer; dsimp only
  have h0 : Acts s (s.upd fun c => { c with dataAvail := .closed }) :=
    same s ⟨rfl, rfl, rfl, rfl, rfl, rfl, rfl, rfl, rfl, rfl⟩ rfl
  generalize s.upd (fun c => { c with dataAvail := .closed }) = u at h0 ⊢
  split
  · exact h0.trans (postAfter u (fun c => { c with curTarget := none }.setPhase PHASE_IDLE) CSR_TIMEOUT
      (fun c => c.cfg.tTimeout) ⟨rfl, rfl, rfl, rfl, rfl, rfl, rfl, rfl, rfl, rfl⟩ rfl)
  · rename_i id _
    have h1 := h0.trans (xferSelected u atn id)
    generalize u.xferSelected atn id = v at h1 ⊢
    have h2 := h1.trans (xferExecute v v.xferTarget)
    generalize v.xferExecute v.xferTarget = w at h2 ⊢
    have h3 := h2.trans (xferDataPhase w u.ctl.tc w.xferTarget)
    generalize w.xferDataPhase u.ctl.tc w.xferTarget = r at h3 ⊢
    split
    · exact h3
    · exact (h3.trans (xferStatus _ _)).trans (xferComplete _)

theorem transferShape_data {p : Byte} {n : Nat} {t u : Target} (h : transferShape p n t = some u) : u.data = t.data := by
  unfold transferShape at h
  split at h
  · cases h; rfl
  · split at h
    · cases h; rfl
    · split at h
      · cases h; rfl
      · split at h
        · cases h; rfl
        · split at h
          · cases h; rfl
          · cases h

/-- Transfer Info. -/
theorem transferOpen (s : State) (sbt : Bool) (t : Target) (ht : s.target = some t) :
    Acts s (s.transferOpen sbt t) := by
  unfold State.transferOpen; dsimp only
  have hu : Memory.wf t.data → Memory.wf (if (s.ctl.phase == PHASE_MESSAGE_SENT) = true then { t with status := 0 } else t).data := by
    split <;> exact id
  have htd : s.ctl.ok → Memory.wf t.data := fun h => Controller.ok_target h ht
  have h1 : Acts s (s.upd fun c =>
      { (if (s.ctl.phase == PHASE_MESSAGE_SENT) = true
          then (c.setPhase PHASE_COMMAND).setTarget (if (s.ctl.phase == PHASE_MESSAGE_SENT) = true then { t with status := 0 } else t)
          else c).setTc (transferCount sbt
            (if (s.ctl.phase == PHASE_MESSAGE_SENT) = true
              then (c.setPhase PHASE_COMMAND).setTarget (if (s.ctl.phase == PHASE_MESSAGE_SENT) = true then { t with status := 0 } else t)
              else c).tc) with scratchOff := 0 }) := by
    refine upd s (fun h => ?_) ?_ ?_
    · refine Controller.SameOk.ok (c := if (s.ctl.phase == PHASE_MESSAGE_SENT) = true
          then (s.ctl.setPhase PHASE_COMMAND).setTarget (if (s.ctl.phase == PHASE_MESSAGE_SENT) = true then { t with status := 0 } else t)
          else s.ctl) ⟨rfl, rfl, rfl, rfl, rfl, rfl, rfl, rfl, rfl, rfl⟩ ?_
      split
      · exact Controller.ok_setTarget ((Controller.setReg_same _ _ _).ok h) (htd h)
      · exact h
    · dsimp only; split <;> simp
    · dsimp only; split <;> simp
  split
  · exact h1.trans (same _ ⟨rfl, rfl, rfl, rfl, rfl, rfl, rfl, rfl, rfl, rfl⟩ rfl)
  · rename_i t' ht'
    have hd := transferShape_data ht'
    refine ⟨fun h => ?_, ?_, ?_, id, .inl rfl, rfl, rfl, rfl, rfl, rfl⟩
    · refine Controller.SameOk.ok (c := Controller.setTarget _ t') ⟨rfl, rfl, rfl, rfl, rfl, rfl, rfl, rfl, rfl, rfl⟩
        (Controller.ok_setTarget (h1.ok h) ?_)
      rw [hd]; exact hu (htd h)
    · exact (Controller.setTarget_slot _ _).trans h1.slot
    · exact (Controller.setTarget_cfg _ _).trans h1.cfg

/-! ### The tick (45_dispatch.md) -/

theorem ok_deliver_foldl (l : List Byte) (c : Controller) (h : c.ok) : (l.foldl Controller.deliver c).ok := by
  induction l generalizing c with
  | nil => exact h
  | cons b l ih => exact ih _ (Controller.SameOk.ok ⟨rfl, rfl, rfl, rfl, rfl, rfl, rfl, rfl, rfl, rfl⟩ h)

theorem deliver_foldl_frame (l : List Byte) (c : Controller) :
    (l.foldl Controller.deliver c).slot = c.slot ∧ (l.foldl Controller.deliver c).cfg = c.cfg := by
  induction l generalizing c with
  | nil => exact ⟨rfl, rfl⟩
  | cons b l ih => exact ih _

theorem pollOnce (s : State) : Acts s (s.upd Controller.pollOnce) := by
  refine upd s (fun h => ?_) ?_ ?_ <;> unfold Controller.pollOnce <;> split
  · exact h
  · refine ok_deliver_foldl _ _ ?_
    obtain ⟨h1, ⟨h2, h3⟩, h4⟩ := h
    exact ⟨h1, ⟨by simpa using h2, h3⟩, h4⟩
  · rfl
  · exact (deliver_foldl_frame _ _).1
  · rfl
  · exact (deliver_foldl_frame _ _).2

theorem dmaDrive (s : State) : Acts s s.dmaDrive := by
  unfold State.dmaDrive; split
  · exact same s ⟨rfl, rfl, rfl, rfl, rfl, rfl, rfl, rfl, rfl, rfl⟩ rfl
  · split
    · exact same s ⟨rfl, rfl, rfl, rfl, rfl, rfl, rfl, rfl, rfl, rfl⟩ rfl
    · split
      · dsimp only
        have h1 : Acts s (s.pump.1.upd fun c => { c with dataAvail := .closed }) :=
          (pump s).trans (same _ ⟨rfl, rfl, rfl, rfl, rfl, rfl, rfl, rfl, rfl, rfl⟩ rfl)
        split
        · exact h1.trans (transferIn _ _)
        · exact h1.trans (transferOut _)
      · exact pump s

theorem dmaContinue (s : State) : Acts s s.dmaContinue := by
  unfold State.dmaContinue; split
  · exact dmaDrive s
  · exact refl s

theorem tick (s : State) : Acts s s.tick := ((dmaContinue s).trans (pollOnce _)).trans (recompute _)

end Acts

end Sys2Proof.Machine
end

