-- ==== Sys2Proof/Laws/Hold.lean ====
section
/-! SUPPORT. The full-queue hold (45_dispatch.md R302): what lifting it changes, and the host's turn by it. -/

namespace Sys2Proof.Machine

@[simp] theorem State.liftHold_ctl (s : State) : s.liftHold.ctl = s.ctl := rfl
@[simp] theorem State.liftHold_others (s : State) : s.liftHold.others = s.others := rfl
@[simp] theorem State.liftHold_irqLine (s : State) : s.liftHold.irqLine = s.irqLine := rfl
@[simp] theorem State.liftHold_mem (s : State) : s.liftHold.mem = s.mem := rfl
@[simp] theorem State.liftHold_memMap (s : State) : s.liftHold.memMap = s.memMap := rfl
@[simp] theorem State.liftHold_turns (s : State) : s.liftHold.turns = s.turns := rfl
@[simp] theorem State.liftHold_hostOps (s : State) : s.liftHold.hostOps = s.hostOps := rfl
@[simp] theorem State.liftHold_hostData (s : State) : s.liftHold.hostData = s.hostData := rfl
@[simp] theorem State.liftHold_draws (s : State) : s.liftHold.draws = s.draws := rfl

/-- After a removal by controller `k` no host is held at the queue of `k`. -/
theorem State.liftHold_ne (s : State) : s.liftHold.hostHeld ≠ some s.ctl.slot := by
  simp only [State.liftHold]
  split
  · simp
  · assumption

/-- A removal by another controller leaves the hold. -/
theorem State.liftHold_other {s : State} {k : Nat} (h : s.hostHeld = some k) (hk : k ≠ s.ctl.slot) :
    s.liftHold.hostHeld = some k := by
  simp [State.liftHold, h, hk]

/-- A held host's turn passes. -/
theorem State.hostTurn_held {s : State} {k : Nat} (h : s.hostHeld = some k) : s.hostTurn = .next s := by
  simp [State.hostTurn, h]

theorem State.hostTurn_free {s : State} (h : s.hostHeld = none) : s.hostTurn = s.hostProceeds := by
  simp [State.hostTurn, h]

end Sys2Proof.Machine
end

