-- ==== Sys2Proof/Laws/PerInstr.lean ====
section
/-! SUPPORT. The family of statements about every instruction as syntax: its encoding fits its format. -/

namespace Sys2Proof.Laws.Fits

/-- The encoding of `i` is 32 bits wide (30_encoding.md R110) or 8 (R113), and has no bit above that. -/
def Statement (i : Instr) : Prop :=
  ((encodeTableWord i).1 = 32 ∨ (encodeTableWord i).1 = 8) ∧ (encodeTableWord i).2 < 2 ^ (encodeTableWord i).1

theorem msgShutdown : Statement .msgShutdown := ⟨.inl rfl, BitVec.isLt _⟩
theorem msgCmd (tid cmd : Byte) : Statement (.msgCmd tid cmd) := ⟨.inl rfl, BitVec.isLt _⟩
theorem msgContIn (tid cmd : Byte) : Statement (.msgContIn tid cmd) := ⟨.inl rfl, BitVec.isLt _⟩
theorem msgContOut (tid cmd : Byte) : Statement (.msgContOut tid cmd) := ⟨.inl rfl, BitVec.isLt _⟩
theorem msgContInMsg (tid cmd : Byte) : Statement (.msgContInMsg tid cmd) := ⟨.inl rfl, BitVec.isLt _⟩
theorem msgUnknown (tid : Byte) (mtype : Half) (cmd : Byte) : Statement (.msgUnknown tid mtype cmd) :=
  ⟨.inl rfl, BitVec.isLt _⟩
theorem reset (sbt : Bool) : Statement (.reset sbt) := ⟨.inr rfl, BitVec.isLt _⟩
theorem abort (sbt : Bool) : Statement (.abort sbt) := ⟨.inr rfl, BitVec.isLt _⟩
theorem negateAck (sbt : Bool) : Statement (.negateAck sbt) := ⟨.inr rfl, BitVec.isLt _⟩
theorem selAtn (sbt : Bool) : Statement (.selAtn sbt) := ⟨.inr rfl, BitVec.isLt _⟩
theorem sel (sbt : Bool) : Statement (.sel sbt) := ⟨.inr rfl, BitVec.isLt _⟩
theorem selAtnXfer (sbt : Bool) : Statement (.selAtnXfer sbt) := ⟨.inr rfl, BitVec.isLt _⟩
theorem selXfer (sbt : Bool) : Statement (.selXfer sbt) := ⟨.inr rfl, BitVec.isLt _⟩
theorem transInfo (sbt : Bool) : Statement (.transInfo sbt) := ⟨.inr rfl, BitVec.isLt _⟩
theorem invalid (sbt : Bool) (op : BitVec 7) : Statement (.invalid sbt op) := ⟨.inr rfl, BitVec.isLt _⟩

end Sys2Proof.Laws.Fits
end

