-- ==== Sys2Proof/Tests/Slice0.lean ====
section
/-! SUPPORT. Tests on concrete states, their expected results taken from 95_test_vectors.md (V<n>) or worked out from the
rule named, and one witness for the hypotheses of each statement. -/

namespace Sys2Proof.Tests

open Machine

/-! ### Well-formedness refuses (30_encoding.md R111, R114, R115) -/

theorem test_unknown_message_of_a_known_type_refused : (Instr.msgUnknown 3 2 0).wf SHUTDOWN = false := by decide
theorem test_unknown_message_that_is_the_sentinel_refused : (Instr.msgUnknown 0xFF 0xFFFF 0xFF).wf SHUTDOWN = false := by decide
theorem test_invalid_with_a_named_code_refused : (Instr.invalid true 0x20).wf SHUTDOWN = false := by decide

/-! ### Decoding, words written out from the spec's encodings (R110 to R115; V120 to V126) -/

theorem test_decode_shutdown : decodeTableWord 32 0xFFFFFFFF = some .msgShutdown := by decide
theorem test_decode_cmd : decodeTableWord 32 0x03000007 = some (.msgCmd 0x03 0x07) := by decide
theorem test_decode_cont_in : decodeTableWord 32 0x03000100 = some (.msgContIn 0x03 0x00) := by decide
theorem test_decode_cont_out : decodeTableWord 32 0x03000200 = some (.msgContOut 0x03 0x00) := by decide
theorem test_decode_cont_in_msg : decodeTableWord 32 0x03000300 = some (.msgContInMsg 0x03 0x00) := by decide
theorem test_decode_unknown : decodeTableWord 32 0x00FFFF00 = some (.msgUnknown 0x00 0xFFFF 0x00) := by decide
theorem test_decode_reset : decodeTableWord 8 0b10000000 = some (.reset true) := by decide
theorem test_decode_abort : decodeTableWord 8 0b00000001 = some (.abort false) := by decide
theorem test_decode_negate_ack : decodeTableWord 8 0b00000011 = some (.negateAck false) := by decide
theorem test_decode_sel_atn : decodeTableWord 8 0b00000110 = some (.selAtn false) := by decide
theorem test_decode_sel : decodeTableWord 8 0b10000111 = some (.sel true) := by decide
theorem test_decode_sel_atn_xfer : decodeTableWord 8 0b00001000 = some (.selAtnXfer false) := by decide
theorem test_decode_sel_xfer : decodeTableWord 8 0b00001001 = some (.selXfer false) := by decide
theorem test_decode_trans_info : decodeTableWord 8 0b10100000 = some (.transInfo true) := by decide
theorem test_decode_invalid : decodeTableWord 8 0b10000100 = some (.invalid true 0b0000100) := by decide
theorem test_decode_rejects_width : decodeBits 40 0 = .error .noSuchFormat := by rfl
theorem test_decode_rejects_bits : decodeBits 8 0x100 = .error .bitsAboveFormat := by rfl

/-! ### Small states -/

/-- A target for which READ is answered as in 95_test_vectors.md section 5, with `n` bytes of data 0, 1, 2, … -/
def reader (n : Nat) : Target :=
  { Target.fresh with
    analyzeReplies := [{ cmdLength := 6, direction := .toHost, dataLength := n }]
    executeReplies := [{ status := 0x02, data := (List.range n).map fun k => BitVec.ofNat 8 k }] }

/-- S0 on a board of variant `v`, target `t` at SCSI ID 3 and current, DESTINATION_ID 3, phase `p`, counter `tc`, CONTROL
`control`, then `f`. -/
def at3 (v : Variant) (t : Target) (p : Byte) (tc : Count) (control : Byte) (f : Controller → Controller) : State :=
  State.reset.upd fun _ =>
    let c := Controller.construct 0 (defaultParams v) ((attach [3]).set 3 (some t))
    f ((((({ c with curTarget := some 3 }).setReg 0x15 3).setPhase p).setTc tc).setReg 0x01 control)

/-- The same, selected. -/
def sel3 (v : Variant) (t : Target) (p : Byte) (tc : Count) (control : Byte) : State :=
  at3 v t p tc control fun c => { c with selected := true }

/-- A field of the state an instruction leads to. -/
def after {α : Type} (i : Instr) (s : State) (f : State → α) : Option α :=
  match exec i s with
  | .next t => some (f t)
  | .fault _ => none
  | .refused _ => none

/-- The queue as pairs. -/
def slots (s : State) : List (Byte × Nat) := s.ctl.queue.map fun q => (q.status, q.count)

/-- Host memory as pairs. -/
def cells (s : State) : List (Nat × Byte) := s.mem

def plain (p : Byte) (tc : Count) : State := sel3 .cbmDmac Target.fresh p tc 0x00

/-! ### Instructions -/

/-- V50: the status posted, the registers that stay, `busy` unchanged. -/
theorem test_reset_posts_after_clearing :
    after (.reset false) (at3 .cbmDmac Target.fresh 0x45 9 0x80 fun c =>
      { (c.setReg 0x00 0x0F).setReg 0x17 0x85 with busy := true, auxInt := true, qIndex := 1 })
      (fun t => (slots t, t.ctl.qIndex, t.ctl.busy, t.ctl.auxInt, t.ctl.reg 0x17, t.ctl.reg 0x01)) =
    some ([(0x01, 50), (0x00, 0)], 1, true, false, 0x85, 0x00) := by decide

/-- V118: the folded bit outlives the reset, so the line stays. -/
theorem test_reset_keeps_the_folded_bit :
    after (.reset false) (at3 .cbmDmac Target.fresh 0 0 0 fun c => { c with cntr := 0x10, istr := 0x40 })
      (fun t => (t.ctl.istr, t.irqLine)) = some (0x40, true) := by decide

/-- V52. -/
theorem test_abort_keeps_the_phase :
    after (.abort false) (plain 0x45 9) (fun t => (t.ctl.phase, t.ctl.tc, slots t)) =
      some (0x45, 9, [(0, 0), (0, 0)]) := by decide

/-- V54. -/
theorem test_sel_atn_asks_for_a_message :
    after (.selAtn false) (at3 .cbmDmac Target.fresh 0 0 0 id) (fun t => (t.ctl.phase, slots t)) =
      some (0x10, [(0x11, 2), (0x8E, 4)]) := by decide

/-- V53. -/
theorem test_sel_asks_for_a_command :
    after (.sel false) (at3 .cbmDmac Target.fresh 0 0 0 id) (fun t => (t.ctl.phase, slots t, t.ctl.curTarget)) =
      some (0x30, [(0x11, 2), (0x8A, 4)], some 3) := by decide

/-- V56. -/
theorem test_sel_of_a_missing_target :
    after (.sel false) (at3 .cbmDmac Target.fresh 0 0 0 fun c => c.setReg 0x15 5)
      (fun t => (t.ctl.phase, slots t, t.ctl.curTarget)) = some (0x00, [(0x42, 1000), (0, 0)], none) := by decide

/-- V57, with 3 bytes in place of 512. -/
theorem test_sel_xfer_reads :
    after (.selXfer false) (at3 .cbmDmac (reader 3) 0 3 0x80 fun c => { c with acr := 0x0200 })
      (fun t => (t.ctl.phase, t.ctl.reg 0x0F, slots t)) = some (0x60, 0x02, [(0x16, 2), (0x85, 4)]) := by decide

theorem test_sel_xfer_stores :
    after (.selXfer false) (at3 .cbmDmac (reader 3) 0 3 0x80 fun c => { c with acr := 0x0200 }) cells =
      some [(0x200, 0), (0x201, 1), (0x202, 2)] := by decide

/-- V63: the counter runs out first. -/
theorem test_sel_xfer_counter_runs_out :
    after (.selXfer false) (at3 .cbmDmac (reader 3) 0 2 0x80 id)
      (fun t => (t.ctl.phase, t.ctl.tc, slots t, t.ctl.selected)) =
    some (0x45, 0, [(0x49, 1), (0, 0)], true) := by decide

/-- V64: the target ends first. -/
theorem test_sel_atn_xfer_target_ends_first :
    after (.selAtnXfer false) (at3 .cbmDmac (reader 3) 0 5 0x80 id)
      (fun t => (t.ctl.phase, t.ctl.tc, slots t, t.ctl.reg 0x0F)) =
    some (0x46, 2, [(0x4B, 1), (0, 0)], 0x00) := by decide

/-- V62: the direction bit is the other one. -/
theorem test_sel_atn_xfer_direction :
    after (.selAtnXfer false) (at3 .cbmDmac (reader 3) 0 3 0x80 fun c => { c with cntr := 0x08 })
      (fun t => (t.ctl.phase, t.ctl.tc, slots t)) =
    some (0x45, 3, [(0x49, 1), (0, 0)]) := by decide

/-- V68, V69. -/
theorem test_trans_info_command_phase :
    (after (.transInfo false) (plain 0x30 6) fun t =>
      (t.target.map fun t => (t.direction, t.dataLength, t.cmdLength), t.ctl.dataAvail)) =
      some (some (.command, 6, 6), .pio) ∧
    after (.transInfo false) (sel3 .cbmDmac Target.fresh 0x30 6 0x80) (fun t => t.ctl.dataAvail) = some .dma := by
  decide

/-- V72, V74. -/
theorem test_trans_info_single_byte_and_unlisted_phase :
    after (.transInfo true) (plain 0x45 512) (fun t => t.ctl.tc) = some 1 ∧
    after (.transInfo false) (plain 0x60 4) (fun t => (t.ctl.dataAvail, slots t)) =
      some (.closed, [(0, 0), (0, 0)]) := by decide

/-- V76, V77. -/
theorem test_negate_ack :
    after (.negateAck false) (sel3 .cbmDmac { Target.fresh with offset := 1, dataLength := 1 } 0x50 0 0)
      (fun t => (t.ctl.phase, t.ctl.selected, slots t)) = some (0x60, false, [(0x85, 1), (0, 0)]) ∧
    after (.negateAck false) (sel3 .cbmDmac { Target.fresh with offset := 1, dataLength := 2 } 0x50 0 0)
      (fun t => (t.ctl.phase, t.ctl.selected, slots t)) = some (0x50, true, [(0x1F, 1), (0, 0)]) := by decide

/-- V79. -/
theorem test_invalid : after (.invalid false 0x04) State.reset slots = some [(0x40, 10), (0, 0)] := by decide

/-- V128: the worker reads DESTINATION_ID, not the message's target. -/
theorem test_msg_cmd_ignores_tid :
    after (.msgCmd 3 0x07) (at3 .cbmDmac Target.fresh 0 0 0 fun c => c.setReg 0x15 5) slots =
      some [(0x42, 1000), (0, 0)] := by decide

/-- P3, line 10. -/
theorem test_msg_cont_out_identify :
    after (.msgContOut 3 0) (at3 .gvpS2 Target.fresh 0x10 0 0 fun c => { c with scratch := [(0, 0xC0)], busy := true })
      (fun t => (t.target.map Target.identify, t.ctl.phase, slots t, t.ctl.busy)) =
    some (some 0xC0, 0x20, [(0x1A, 1), (0, 0)], false) := by decide

/-- P1, line 15, with 3 bytes. -/
theorem test_msg_cont_out_command :
    after (.msgContOut 3 0) (sel3 .cbmDmac (reader 3) 0x30 0 0)
      (fun t => (t.ctl.phase, slots t, t.target.map fun t => (t.dataLength, t.offset))) =
    some (0x45, [(0x19, 1), (0, 0)], some (3, 0)) := by decide

/-- V25: the target ended early. -/
theorem test_msg_cont_in_early_end :
    after (.msgContIn 3 0) (sel3 .cbmDmac { Target.fresh with direction := .toHost, offset := 2, dataLength := 2 } 0x45 2 0)
      (fun t => (t.ctl.phase, t.ctl.tc, slots t)) = some (0x46, 0, [(0x4B, 1), (0, 0)]) := by decide

/-- V26. -/
theorem test_msg_cont_in_msg_after_status :
    after (.msgContInMsg 3 0) (plain 0x46 0) (fun t => (t.ctl.phase, slots t)) =
      some (0x50, [(0x1F, 1), (0, 0)]) := by decide

/-- V126. -/
theorem test_msg_unknown : exec (.msgUnknown 0 4 0) State.reset = .next State.reset := by rfl

/-- V125. -/
theorem test_msg_shutdown : after .msgShutdown State.reset (fun t => t.ctl.workerAlive) = some false := by decide

/-! ### Other operations -/

/-- V31, V32: two posts, then five ticks with the status unread. -/
theorem test_queue_stops_while_pending :
    let c := (State.reset.ctl.post 0x11 2).post 0x8A 4
    (Controller.pollOnce^[5] c).queue.map Slot.count = [0, 2] ∧ (Controller.pollOnce^[5] c).reg 0x17 = 0x11 := by decide

/-- V90: the word counter. -/
theorem test_pump_raises_end_of_process :
    let s := at3 .cbmDmac { Target.fresh with direction := .toHost, dataLength := 6, data := Memory.putAll [] 0 [1, 2, 3, 4, 5, 6] }
      0x45 6 0 fun c => { c with cntr := 0x90, wtc := 2, acr := 0x1000 }
    (s.pump.1.ctl.acr, s.pump.1.ctl.wtc, s.pump.1.ctl.istr, s.pump.1.irqLine) = (0x1006, 0, 0x20, true) := by decide

/-- V95: the Series I buffer wraps, and so does the address, on the outbound side. -/
theorem test_gvp_s1_outbound_wraps :
    let s := at3 .gvpS1 { Target.fresh with direction := .toDevice, dataLength := 3 } 0x45 3 0 fun c =>
      { c with sramOff := 16382, sram := [(0, 0x33), (16382, 0x11), (16383, 0x22)], gaddr := 0x00FFFFFE }
    (s.pump.1.ctl.sramOff, s.pump.1.ctl.gaddr, s.pump.1.target.map Target.data) =
      (1, 1, some [(0, 0x11), (1, 0x22), (2, 0x33)]) := by decide

/-- V97: the Series II address wraps at its mask. -/
theorem test_gvp_s2_wraps :
    let s := at3 .gvpS2 { Target.fresh with direction := .toHost, dataLength := 2, data := [(0, 0xD0), (1, 0xD1)] } 0x45 2 0
      fun c => { c with gaddr := 0x00FFFFFF }
    (cells s.pump.1, s.pump.1.ctl.gaddr) = ([(0, 0xD1), (0xFFFFFF, 0xD0)], 1) := by decide

/-- V6: a COMMAND write enqueues the word. -/
theorem test_command_write :
    ((at3 .cbmDmac Target.fresh 0 0 0 fun c => { c with sasr := 0x18 }).datWrite 0x07).map
      (fun t => (t.ctl.cmdq, t.ctl.busy, t.ctl.sasr)) = some ([0x03000007], true, 0x18) := by decide

/-- V104. -/
theorem test_gcntr_keeps_the_pending_bit :
    (Controller.writeGcntr { State.reset.ctl with gcntr := 0x0000 } 0xFFFF).gcntr = 0xFFFD := by decide

/-! ### Witnesses: for each statement a state and operands that meet its hypotheses, one for each clause, at the ends of
the clause's range -/

theorem witness_DecodeInvertsEncode :
    sentinelLegal SHUTDOWN = true ∧ sentinelLegal 0x00000400 = true ∧ sentinelLegal 0x03000307 = false ∧
    (Instr.msgUnknown 0 4 1).wf 0x00000400 = true ∧ (Instr.msgUnknown 0xFF 0xFFFF 0xFE).wf SHUTDOWN = true ∧
    (Instr.invalid false 0x02).wf SHUTDOWN = true ∧ (Instr.invalid true 0x7F).wf SHUTDOWN = true ∧
    Instr.msgShutdown.wf SHUTDOWN = true :=
  ⟨by decide, by decide, by decide, by decide, by decide, by decide, by decide, by decide⟩

/-- The worker's turn, with `q` in its queue. -/
def workerTurn (alive : Bool) (q : List Word) : State :=
  { at3 .cbmDmac Target.fresh 0 0 0 fun c => { c with workerAlive := alive, cmdq := q } with turns := [.worker 0] }

theorem witness_WorkerStepRunsTheHeadWord :
    (∀ alive q, (workerTurn alive q).turns = [.worker 0] ∧
      State.focus { workerTurn alive q with turns := [] } 0 = some { workerTurn alive q with turns := [] }) ∧
    State.focus { workerTurn true [] with turns := [] } 1 = none ∧
    (workerTurn false [0x03000007]).ctl.workerAlive = false ∧ (workerTurn true []).ctl.cmdq = [] ∧
    (workerTurn true [0x03000007]).ctl.workerAlive = true ∧ (workerTurn true [0x03000007]).ctl.cmdq = [0x03000007] ∧
    decode (workerTurn true []).ctl.cfg.shutdown (.message 0x03000007) = .msgCmd 3 7 :=
  ⟨fun _ _ => ⟨rfl, rfl⟩, rfl, rfl, rfl, rfl, rfl, rfl⟩

/-- The host's turn with `op` pending, the pointer at `r`, the queue holding `q`, `av` the transfer open. -/
def hostTurnAt (t : Target) (tc : Count) (r : RegNum) (av : DataAvail) (q : List Word) (op : HostOp) : State :=
  { at3 .cbmDmac t 0x45 tc 0 fun c => { c with sasr := r, dataAvail := av, cmdq := q } with
    turns := [.host], hostOps := [op] }

/-- A turn for each kind of access: a named port, a byte and a word at SEL, a byte and a word at CNTR, an unnamed byte, a
32-bit access, teardown, and its wait. -/
theorem witness_HostTurnPerformsTheAccess :
    (∀ op : HostOp, op.slot = 0 →
      let s := hostTurnAt Target.fresh 0 0 .closed [] op
      let s' : State := { s with turns := [], hostOps := [] }
      s.turns = [.host] ∧ s.hostHeld = none ∧ s.hostOps = [op] ∧ s'.focus op.slot = some s' ∧ s'.ctl.enabled = true ∧ s'.ctl.down = false ∧
        s'.portAccess .cntr .read = .done s' (some 0) ∧ s'.ctl.cmdq.length < s'.ctl.cfg.cmdqCap) ∧
    (State.reset.ctl.portAt 0x90 = some .sel ∧ State.reset.ctl.portAt 0x43 = some .cntr ∧
      State.reset.ctl.portAt 0x3E = none) ∧
    (hostTurnAt Target.fresh 0 0 .closed [] (.awaitExit 0)).ctl.workerAlive = true ∧
    (State.upd (hostTurnAt Target.fresh 0 0 .closed [] (.awaitExit 0)) fun c =>
      { c with workerAlive := false }).ctl.workerAlive = false := by
  refine ⟨fun op h => ⟨rfl, rfl, rfl, ?_, rfl, rfl, rfl, Nat.zero_lt_succ 3⟩, by decide, rfl, rfl⟩
  rw [h]; rfl

/-- Nothing pending; an access to a controller that is absent, one that is disabled, one that is torn down; the XT window
by name and through the page. -/
theorem witness_HostTurnPerformsTheAccess_dropped_and_refused :
    let s := hostTurnAt Target.fresh 0 0 .closed [] (.port 0 .xtWindow .read)
    ({ s with hostOps := [] } : State).turns = [.host] ∧ s.hostHeld = none ∧ ({ s with hostHeld := some 0 } : State).hostHeld ≠ none ∧
    s.focus 1 = none ∧ s.focus 0 = some s ∧
    (s.upd fun c => { c with enabled := false }).ctl.enabled = false ∧
    (s.upd fun c => { c with down := true }).ctl.down = true ∧ s.ctl.enabled = true ∧ s.ctl.down = false ∧
    s.ctl.cfg.variant = .cbmDmac ∧ s.ctl.portAt 0xA0 = some .xtWindow ∧ s.ctl.portAt 0xA7 = some .xtWindow := by decide

/-- 45_dispatch.md R322, 93_implementation_defined.md U17: a torn-down controller takes no access. -/
theorem test_torn_down_board_drops_the_access :
    (match step (State.upd (hostTurnAt Target.fresh 0 0x18 .closed [] (.port 0 .dat (.write 7))) fun c =>
        { c with down := true }) with
      | .next t => some (t.ctl.cmdq, t.ctl.busy, t.hostOps)
      | .fault _ => none
      | .refused _ => none) = some ([], false, []) := by decide

/-- 20_memory.md R73: a 16-bit read at 0x91 is a byte read of SEL. -/
theorem test_word_read_at_an_odd_offset :
    (match step (hostTurnAt Target.fresh 0 0 .pio [] (.page 0 0x91 .word .read false)) with
      | .next t => some t.hostData
      | .fault _ => none
      | .refused _ => none) = some 0x01 := by decide

/-- 20_memory.md R75: GVP offset 0x3E, whose function the source does not state, is an offset nothing names. -/
theorem test_unnamed_offset :
    (let s := at3 .gvpS1 Target.fresh 0 0 0 id
     match s.pageAccess 0x3E .read with
      | .done t d => decide (t = s) && decide (d = some 0)
      | .held => false
      | .refused _ => false) = true := by decide

/-- 45_dispatch.md R322: teardown asks nothing of `enabled`. -/
theorem test_teardown_of_a_disabled_board :
    (match step (State.upd (hostTurnAt Target.fresh 0 0 .closed [] (.teardown 0)) fun c => { c with enabled := false }) with
      | .next t => some t.ctl.cmdq
      | .fault _ => none
      | .refused _ => none) = some [0xFFFFFFFF] := by decide

/-- The state one step leads to. -/
def nextOf (s : State) : Option State :=
  match step s with
  | .next t => some t
  | .fault _ => none
  | .refused _ => none

/-- A COMMAND write at a full queue, the worker's first word in `w`, its life in `alive`, and turns after the host's. -/
def heldWrite (alive : Bool) (ts : List Turn) : State :=
  { (hostTurnAt Target.fresh 0 0x18 .closed [0x03000001, 2, 3, 4] (.port 0 .dat (.write 7))).upd fun c =>
      { c with workerAlive := alive } with turns := .host :: ts }

/-- R302, U16: a board reset does not lift the hold, and the host's next turn passes; the queue's worker does. -/
theorem test_hold_is_lifted_by_the_worker_only :
    ((nextOf (heldWrite false [.external (.boardReset 0), .host])).bind nextOf >>= nextOf).map
      (fun t => (t.hostHeld, t.hostOps, t.ctl.reg 0x00, t.ctl.cmdq.length)) =
        some (some 0, [.port 0 .dat (.write 7)], 0, 4) ∧
    ((nextOf (heldWrite true [.worker 0, .host])).bind nextOf >>= nextOf).map
      (fun t => (t.hostHeld, t.hostOps, t.ctl.cmdq)) = some (none, [], [2, 3, 4, 0x03000007]) := ⟨by decide, by decide⟩

/-- A held host: its turn, a turn of the worker that lifts the hold. -/
theorem witness_FullQueueHoldsTheHost_held :
    ((nextOf (heldWrite true [.worker 0])).map fun t => (t.hostHeld, t.turns, t.ctl.workerAlive, t.ctl.cmdq.length)) =
      some (some 0, [.worker 0], true, 4) ∧
    (heldWrite true []).hostHeld = none := by decide

/-- The page reaches DAT by byte and by word (R72, R73). -/
theorem witness_FullQueueHoldsTheHost_through_the_page :
    ∀ off ∈ [0x92, 0x93], ∀ w ∈ [Width.byte, .word],
      let s := hostTurnAt Target.fresh 0 0x18 .closed [1, 2, 3, 4] (.page 0 off w (.write 7) false)
      s.ctl.portAt off = some .dat ∧ s.ctl.enabled = true ∧ s.ctl.down = false ∧ s.ctl.sasr = 0x18 ∧
      s.ctl.cmdq.length = s.ctl.cfg.cmdqCap := by decide

theorem witness_FullQueueHoldsTheHost :
    let q : List Word := [1, 2, 3, 4]
    let t : Target := { Target.fresh with dataLength := 9 }
    (hostTurnAt t 2 0x18 .closed q (.port 0 .dat (.write 7))).ctl.cmdq.length = 4 ∧
    (defaultParams .cbmDmac).cmdqCap = 4 ∧ (hostTurnAt t 2 0x18 .closed q (.port 0 .dat (.write 7))).ctl.sasr = 0x18 ∧
    (let s := hostTurnAt t 1 0x19 .pio q (.port 0 .dat .read)
     s.ctl.dataAvail ≠ .closed ∧ s.target = some t ∧ s.ctl.tc.toNat ≤ 1 ∧ s.ctl.enabled = true ∧ s.ctl.down = false ∧
       State.focus { s with turns := [], hostOps := [] } 0 = some { s with turns := [], hostOps := [] }) ∧
    (let t : Target := { Target.fresh with offset := 2, dataLength := 3 }
     let s := hostTurnAt t 5 0x19 .dma q (.port 0 .dat (.write 0))
     s.target = some t ∧ t.dataLength ≤ t.offset + 1) := by decide

/-- DAT with the pointer at `r`. -/
def datAt (r : RegNum) (f : Controller → Controller) : State :=
  at3 .cbmDmac { Target.fresh with dataLength := 2 } 0x45 2 0 fun c => f { c with sasr := r }

theorem witness_AuxiliaryStatusIsReadWithoutEffect : (datAt 0x1F id).ctl.sasr = 0x1F := by decide
theorem witness_StatusReadAcknowledges : (datAt 0x17 id).ctl.sasr = 0x17 := by decide
theorem witness_ProtectedRegisterWrites :
    (datAt 0x17 id).ctl.sasr = 0x17 ∧ (datAt 0x1F id).ctl.sasr = 0x1F ∧ (datAt 0x00 id).ctl.sasr = 0x00 := by decide
theorem witness_PlainRegistersReadAndWrite :
    (datAt 0x1E id).ctl.sasr ∉ ([0x00, 0x17, 0x18, 0x19, 0x1F] : List RegNum) ∧
    (datAt 0x01 id).ctl.sasr ∉ ([0x00, 0x17, 0x18, 0x19, 0x1F] : List RegNum) ∧
    (datAt 0x18 id).ctl.sasr ∉ ([0x17, 0x19, 0x1F] : List RegNum) ∧
    (datAt 0x00 id).ctl.sasr ∉ ([0x17, 0x19, 0x1F] : List RegNum) := by decide
/-- DAT by read and by write, held and not. -/
theorem witness_PointerIsSetAndAdvances :
    (datAt 0x15 id).datRead.isSome = true ∧ ((datAt 0x15 id).datWrite 0x07).isSome = true ∧
    ((datAt 0x18 fun c => { c with cmdq := [1, 2, 3, 4] }).datWrite 0x07) = none ∧
    ((datAt 0x19 fun c => { (c.setTc 1) with cmdq := [1, 2, 3, 4], dataAvail := .pio }).datRead) = none := by decide
theorem witness_CommandWriteEnqueues :
    let s := datAt 0x18 fun c => { c with cmdq := [1, 2, 3] }
    s.ctl.sasr = 0x18 ∧ s.ctl.cmdq.length < s.ctl.cfg.cmdqCap := by decide
theorem witness_ClosedDataPortMovesNothing :
    (let s := datAt 0x19 id
     s.ctl.sasr = 0x19 ∧ s.ctl.dataAvail = .closed) ∧
    (let s := datAt 0x19 fun c => { c with dataAvail := .pio, curTarget := none }
     s.ctl.sasr = 0x19 ∧ s.target = none) := by decide

/-- DATA with a transfer open, and what the two statements about it ask; `closes` is how they say that the byte is the
last. -/
def dataOpen (tc : Count) (length : Nat) (p : Byte) : State :=
  at3 .cbmDmac { Target.fresh with dataLength := length } p tc 0 fun c => { c with sasr := 0x19, dataAvail := .pio }

theorem witness_DataReadMovesOneByte_and_DataWriteMovesOneByte :
    ∀ e ∈ ([(dataOpen 2 2 0x45, false), (dataOpen 1 2 0x45, true), (dataOpen 2 1 0x46, true), (dataOpen 2 1 0x47, true),
        (dataOpen 2 1 0x50, true)] : List (State × Bool)),
      e.1.ctl.sasr = 0x19 ∧ e.1.ctl.curTarget = some 3 ∧ (e.1.ctl.targets[3]).isSome ∧ e.1.ctl.dataAvail ≠ .closed ∧
      e.1.ctl.cmdq.length < e.1.ctl.cfg.cmdqCap ∧
      (e.1.target.any fun t => decide (t.dataLength ≤ t.offset + 1 ∨ e.1.ctl.tc.toNat ≤ 1)) = e.2 := by decide

theorem witness_PioWriteDeliversEveryByteInOrder :
    let vs : List Byte := [0xAA, 0xBB]
    ∀ t ∈ ([{ Target.fresh with direction := .toDevice, dataLength := 2 },
        { Target.fresh with direction := .command, offset := 15, dataLength := 17 }] : List Target),
      let s := at3 .cbmDmac t 0x45 2 0 fun c => { c with sasr := 0x19, dataAvail := .pio }
      s.ctl.sasr = 0x19 ∧ s.ctl.curTarget = some 3 ∧ s.ctl.targets[3] = some t ∧ s.ctl.dataAvail ≠ .closed ∧
        vs.length = pumpBytes s.ctl t ∧ s.ctl.cmdq.length < s.ctl.cfg.cmdqCap ∧ [0xAA] <+: vs ∧ [0xAA] ≠ vs := by decide

theorem witness_PollCountsDownAndDelivers :
    State.reset.ctl.auxInt = false ∧ ({ State.reset.ctl with auxInt := true } : Controller).auxInt = true ∧
    ((State.reset.ctl.post 0x42 1).queue.filter fun x => decide (x.count = 1)).getLast?.isSome = true := by decide
theorem witness_PostedStatusArrivesOnTime :
    let c := State.reset.ctl
    c.auxInt = false ∧ (∀ x ∈ c.queue, x.count = 0) ∧ c.qIndex < c.queue.length ∧ 0 < max 1 0 ∧ max 1 0 ≤ 1 := by decide

/-- The hypotheses on the lookup: DESTINATION_ID names target 3, which is there. -/
theorem witness_SelectOfAPresentTarget :
    let s := plain 0x00 0
    let id := (s.ctl.regs[0x15].extractLsb' 0 3).toFin
    id ≠ 7 ∧ s.ctl.targets[id.val] = some Target.fresh := by decide
theorem witness_SelectOfAMissingTargetTimesOut :
    (let s := (plain 0 0).upd fun c => c.setReg 0x15 0xFF
     (s.ctl.regs[0x15].extractLsb' 0 3).toFin = 7) ∧
    (let s := (plain 0 0).upd fun c => c.setReg 0x15 6
     s.ctl.targets[(s.ctl.regs[0x15].extractLsb' 0 3).toFin.val] = none) := by decide

/-- What the statements about Select-and-Transfer ask of the lookup and the phase, and of the target at the data phase. -/
def entersData (s : State) (ready : Target → Bool) : Bool :=
  decide ((s.ctl.regs[0x15].extractLsb' 0 3).toFin = 3) &&
  (!s.ctl.selected || decide (s.ctl.regs[0x10].toNat ≤ 0x41) || s.ctl.regs[0x10] == 0x45) &&
  (s.ctl.targets[3].any fun t => ready (s.readyForData t).1)

/-- A target in the middle of an inbound command of `n` bytes: what it answers to `execute` and what it holds agree. -/
def reading (n : Nat) : Target := { reader n with direction := .toHost, dataLength := n }

/-- A new command, one received, one in the data phase; `f` makes the stop. -/
def stopping (tc : Count) (control : Byte) (f : Controller → Controller) : List State :=
  [at3 .cbmDmac (reader 1) 0 tc control f, at3 .cbmDmac (reader 1) 0x30 tc control fun c => { f c with selected := true },
   at3 .cbmDmac (reading 1) 0x31 tc control fun c => { f c with selected := true },
   at3 .cbmDmac (reading 1) 0x41 tc control fun c => { f c with selected := true },
   at3 .cbmDmac (reading 1) 0x45 tc control fun c => { f c with selected := true }]

/-- The three stops, V61, V60, V62, at each phase the statement takes. -/
theorem witness_SelXferStopsBeforeTheData :
    (stopping 0 0x80 id).all (fun s => entersData s fun r => decide (r.direction = .toHost ∧ 0 < r.dataLength) && s.ctl.tc == 0) = true ∧
    (stopping 1 0x00 id).all (fun s => entersData s fun r => decide (r.direction = .toHost ∧ 0 < r.dataLength) && s.ctl.tc != 0 &&
      !s.ctl.canDma) = true ∧
    (stopping 1 0x80 fun c => { c with cntr := 0x08 }).all (fun s => entersData s fun r =>
      decide (r.direction = .toHost ∧ 0 < r.dataLength) && s.ctl.tc != 0 && s.ctl.canDma && s.ctl.otherDirection false) = true :=
  ⟨by decide, by decide, by decide⟩

theorem witness_SelXferResumedLateCompletes :
    [plain 0x42 0, plain 0x44 0, plain 0x46 0, plain 0x47 0, plain 0xFF 0].all (fun s =>
      decide ((s.ctl.regs[0x15].extractLsb' 0 3).toFin = 3) && decide (s.ctl.targets[3] = some Target.fresh) &&
      s.ctl.selected && decide (0x42 ≤ s.ctl.regs[0x10].toNat) && decide (s.ctl.regs[0x10].toNat ≠ 0x45)) = true := by decide

/-- A target that answers a command that moves nothing. -/
def quiet : Target :=
  { Target.fresh with
    analyzeReplies := [{ cmdLength := 6, direction := .nothing, dataLength := 0 }]
    executeReplies := [{ status := 0x08, data := [] }] }

theorem witness_SelXferRunsACommandWithoutData :
    [at3 .cbmDmac quiet 0x60 0 0 id, sel3 .cbmDmac quiet 0x30 0 0, sel3 .cbmDmac quiet 0x31 0 0, sel3 .cbmDmac quiet 0x41 0 0,
     sel3 .cbmDmac quiet 0x45 0 0].all (fun s => entersData s fun r => decide (r.direction = .nothing)) = true ∧
    [at3 .cbmDmac (reader 0) 0 0 0 id, sel3 .cbmDmac (reading 0) 0x31 0 0, sel3 .cbmDmac (reading 0) 0x45 0 0].all (fun s =>
      entersData s fun r => decide (r.direction = .toHost ∧ r.dataLength = 0)) = true := ⟨by decide, by decide⟩

/-- 42_chip_commands.md R216 ("0x45 runs C to E"; P1, line 23): resumed in the data phase, with the engine usable. -/
theorem test_sel_xfer_resumed_in_the_data_phase :
    after (.selXfer false) (at3 .cbmDmac { reading 3 with offset := 1, data := [(1, 0xA1), (2, 0xA2)], status := 0x02 } 0x45 2 0x80
        fun c => { c with selected := true, acr := 0x0200 })
      (fun t => (cells t, t.ctl.phase, t.ctl.reg 0x0F, slots t)) =
    some ([(0x200, 0xA1), (0x201, 0xA2)], 0x60, 0x02, [(0x16, 2), (0x85, 4)]) := by decide

/-- R216 ("0x31..0x41 runs B to E"). -/
theorem test_sel_xfer_resumed_with_the_command_received :
    after (.selXfer false) (at3 .cbmDmac (reading 2) 0x36 2 0x80 fun c => { c with selected := true, acr := 0x0200 })
      (fun t => (cells t, t.ctl.phase, t.ctl.reg 0x0F)) = some ([(0x200, 0), (0x201, 1)], 0x60, 0x02) := by decide

/-- A target for which WRITE is answered with `n` bytes to take. -/
def writer (n : Nat) : Target :=
  { Target.fresh with
    analyzeReplies := [{ cmdLength := 6, direction := .toDevice, dataLength := n }]
    executeReplies := [{ status := 0x02, data := [] }] }

/-- A Select-and-Transfer about to run a command that moves two bytes, `out` bound or in, with the counter at `tc`. -/
def moving (v : Variant) (mode : Byte) (out : Bool) (tc : Count) : State :=
  at3 v (if out then writer 2 else reader 2) 0 tc mode fun c =>
    { c with cntr := if out then 0x08 else 0, gcntr := if out then 0x10 else 0 }

/-- The same, resumed with the command received (0x31, 0x41) or in the data phase (0x45), one byte already moved. -/
def resumed (v : Variant) (mode : Byte) (out : Bool) (p : Byte) (tc : Count) : State :=
  at3 v { (if out then writer 2 else reading 2) with
      direction := if out then .toDevice else .toHost, dataLength := 2, offset := 1, data := [(0, 0), (1, 1)] } p tc mode fun c =>
    { c with cntr := if out then 0x08 else 0, gcntr := if out then 0x10 else 0, selected := true }

/-- What the statement asks of the board and the target. -/
def movable (s : State) (out : Bool) : Bool :=
  (entersData s fun r => decide (r.direction = if out then .toDevice else .toHost) && decide (r.dataLength = 2)) &&
  s.ctl.cfg.variant != .none && s.ctl.canDma && !s.ctl.otherDirection out && s.ctl.tc != 0

/-- Inbound and outbound, on each kind of board, the counter below, at and above what is left. -/
theorem witness_SelXferMovesTheData :
    movable (moving .cbmDmac 0x80 false 1) false = true ∧ movable (moving .cbmDmac 0x80 true 2) true = true ∧
    movable (moving .gvpS1 0x40 false 2) false = true ∧ movable (moving .gvpS1 0x40 true 3) true = true ∧
    movable (moving .gvpS2 0x20 false 3) false = true ∧ movable (moving .gvpS2 0x20 true 1) true = true :=
  ⟨by decide, by decide, by decide, by decide, by decide, by decide⟩
theorem witness_SelXferMovesTheData_resumed :
    movable (resumed .cbmDmac 0x80 false 0x31 2) false = true ∧ movable (resumed .gvpS1 0x40 true 0x41 3) true = true ∧
    movable (resumed .gvpS2 0x20 false 0x45 1) false = true ∧ movable (resumed .cbmDmac 0x80 true 0x45 2) true = true :=
  ⟨by decide, by decide, by decide, by decide⟩
theorem witness_SelXferMovesTheData_ok :
    (moving .cbmDmac 0x80 false 1).ctl.ok ∧ (moving .gvpS1 0x40 true 3).ctl.ok ∧ (moving .gvpS2 0x20 true 1).ctl.ok ∧
    (resumed .cbmDmac 0x80 false 0x31 2).ctl.ok ∧ (resumed .gvpS1 0x40 true 0x41 3).ctl.ok ∧
    (resumed .gvpS2 0x20 false 0x45 1).ctl.ok := ⟨by decide, by decide, by decide, by decide, by decide, by decide⟩

/-- 42_chip_commands.md R210, V65: an outbound command executes after its data. -/
theorem test_sel_xfer_writes :
    after (.selXfer false) { at3 .cbmDmac (writer 2) 0 2 0x80 fun c => { c with cntr := 0x08, acr := 0x10 } with
        mem := [(0x10, 0xAA), (0x11, 0xBB)] }
      (fun t => (t.ctl.phase, t.ctl.reg 0x0F, slots t, t.target.any fun u => decide (u.data = [(0, 0xAA), (1, 0xBB)]))) =
    some (0x60, 0x02, [(0x16, 2), (0x85, 4)], true) := by decide

theorem witness_SelXferLeavesTheRestAlone :
    (at3 .cbmDmac (reader 1) 0 1 0x80 id).ctl.ok ∧
    ∃ u, exec (.selXfer false) (at3 .cbmDmac (reader 1) 0 1 0x80 id) = .next u := ⟨by decide, _, rfl⟩

theorem witness_NothingToTransferChangesNothing :
    State.reset.target = none ∧
    [plain 0x20 0, plain 0x2F 0, plain 0x31 0, plain 0x43 0, plain 0x46 0, plain 0xFF 0].all (fun s =>
      decide (0x20 ≤ s.ctl.regs[0x10].toNat) && s.ctl.regs[0x10] != 0x30 && s.ctl.regs[0x10] != 0x44 &&
      s.ctl.regs[0x10] != 0x45) = true := by decide

/-- Every phase falls under one clause. -/
theorem witness_TransferInfoOpensThePhase :
    [0x00, 0x1F, 0x30, 0x20, 0x44, 0x45, 0x46, 0x47, 0x50, 0x21, 0x60, 0xFF].all (fun p : Byte =>
      let s := plain p 0
      decide (s.ctl.curTarget = some 3) && decide (s.ctl.targets[3] = some Target.fresh) &&
      decide (s.ctl.regs[0x10] = p)) = true := by decide

theorem witness_NegateAckHoldsOrDisconnects :
    State.reset.target = none ∧ (plain 0x4F 0).ctl.regs[0x10] ≠ 0x50 ∧ [(1, 2), (2, 2)].all (fun e : Nat × Nat =>
      let t : Target := { Target.fresh with offset := e.1, dataLength := e.2 }
      let s := sel3 .cbmDmac t 0x50 0 0
      decide (s.ctl.curTarget = some 3) && decide (s.ctl.targets[3] = some t) && decide (s.ctl.regs[0x10] = 0x50)) = true := by
  decide

theorem witness_ContOutForwardsTheIdentifyMessage :
    let s := at3 .cbmDmac Target.fresh 0x1F 0 0 fun c => { c with scratch := [(0, 0x80)] }
    s.ctl.curTarget = some 3 ∧ s.ctl.targets[3] = some Target.fresh ∧ s.ctl.regs[0x10].toNat < 0x20 ∧
    Memory.find s.ctl.scratch 0 = some 0x80 := by decide

/-- A target that answers `analyze` with direction `d` and length `n`, and `execute` with `data`. -/
def answers (d : Reported) (n : Nat) (data : List Byte) : Target :=
  { Target.fresh with
    analyzeReplies := [{ cmdLength := 6, direction := d, dataLength := n }]
    executeReplies := [{ status := 0, data := data }] }

theorem witness_ContOutStartsTheCommand :
    [answers .toDevice 1 [], answers .toHost 1 [5], answers .toHost 0 [], answers .nothing 0 [],
     answers .toDevice 0 []].all (fun t =>
      let s := plain 0x30 0 |>.upd fun c => c.setTarget t
      decide (s.ctl.curTarget = some 3) && decide (s.ctl.targets[3] = some t) && decide (s.ctl.regs[0x10] = 0x30) &&
      decide (t.analyzeReplies.length = 1) && decide (t.executeReplies.length = 1)) = true := by decide

theorem witness_ContOutRetriesOrEndsTheData :
    ([.toDevice, .command, .toHost, .nothing] : List Direction).all (fun d =>
      ([(0x44, 1, 2), (0x45, 1, 2), (0x44, 2, 2), (0x45, 0, 0)] : List (Byte × Nat × Nat)).all fun e =>
      let t := { answers .toDevice 0 [] with offset := e.2.1, dataLength := e.2.2, direction := d }
      let s := plain e.1 0 |>.upd fun c => c.setTarget t
      decide (s.ctl.curTarget = some 3) && decide (s.ctl.targets[3] = some t) && decide (s.ctl.regs[0x10] = e.1)) = true := by
  decide

theorem witness_ContInGoesThroughThePhases :
    State.reset.target = none ∧
    [(0x44, 1, 2), (0x45, 2, 2), (0x46, 0, 0), (0x47, 0, 0), (0x50, 0, 1), (0x50, 1, 1), (0x43, 0, 0), (0x48, 0, 0)].all
      (fun e : Byte × Nat × Nat =>
      let t : Target := { Target.fresh with offset := e.2.1, dataLength := e.2.2 }
      let s := plain e.1 0 |>.upd fun c => c.setTarget t
      decide (s.ctl.curTarget = some 3) && decide (s.ctl.targets[3] = some t) && decide (s.ctl.regs[0x10] = e.1)) = true := by
  decide

theorem witness_DmaModesByVariant :
    ∀ v ∈ [Variant.cbmDmac, .cbmSdmac, .gvpS1, .gvpS2, .none],
      (at3 v Target.fresh 0 0 0x80 id).ctl.cfg.dmaModes = defaultDmaModes (at3 v Target.fresh 0 0 0x80 id).ctl.cfg.variant := by
  decide

theorem witness_PumpRefusesWithoutEffect :
    State.reset.target = none ∧ (plain 0x45 1).target = some Target.fresh ∧ Target.fresh.direction = .nothing ∧
    (sel3 .none Target.fresh 0x45 1 0).ctl.cfg.variant = .none ∧
    (let t : Target := { Target.fresh with direction := .toDevice }
     let s := sel3 .gvpS2 t 0x45 1 0
     s.target = some t ∧ s.ctl.cfg.variant = .gvpS2 ∧ s.ctl.gcntr.getLsbD 4 ≠ decide (t.direction.isOut)) := by decide

/-- A pump about to move `n` bytes, in phase `p`. -/
def pumping (v : Variant) (d : Direction) (n : Nat) (p : Byte) : State :=
  let t : Target := { Target.fresh with direction := d, dataLength := n, data := [(0, 0x11)], messageReplies := [0x33] }
  { (sel3 v t p 3 0).upd fun c =>
      { c with cntr := 0x80, wtc := 1, acr := 1, gcntr := if d.isOut then 0x10 else 0, sram := [(0, 0x22)] } with
    mem := [(0, 0x22), (1, 0x22)] }

/-- On each board that pumps, each direction, a byte or two, phases of each kind. -/
theorem witness_PumpMovesAsManyBytesAsItMust_and_PumpMovesTheDataInOrder :
    [Variant.cbmDmac, .cbmSdmac, .gvpS1, .gvpS2].all (fun v => ([.toHost, .toDevice, .command] : List Direction).all fun d =>
      ([0x45, 0x46, 0x50] : List Byte).all fun p => [1, 2].all fun n =>
      let s := pumping v d n p
      decide (s.ctl.curTarget = some 3) && decide (s.ctl.cfg.variant = v) && s.ctl.gcntr.getLsbD 4 == d.isOut &&
      s.placeKeeps s.ctl 0 && (s.target.any fun t => decide (t.direction = d) && decide (pumpBytes s.ctl t = n) &&
        (s.movedByte t 0).isSome)) = true := by decide
theorem witness_PumpMovesAsManyBytesAsItMust_and_PumpMovesTheDataInOrder_ok :
    ∀ v ∈ [Variant.cbmDmac, .cbmSdmac, .gvpS1, .gvpS2], (pumping v .toHost 2 0x45).ctl.ok := by decide

/-- R263, R28, R90: the bytes of a pump in message-in, in the mirror and in host memory. -/
theorem test_pump_message_in :
    (let s := (pumping .cbmDmac .toHost 1 0x50).pump.1
     (cells s, s.ctl.scratch.map Prod.snd, s.ctl.wtc, s.ctl.istr)) = ([(0, 0x22), (1, 0x33)], [0x33], 0, 0x20) := by decide

theorem witness_WordCounterRaisesEndOfProcess :
    [(0x80, 0, 1, true), (0x80, 0, 2, true), (0x80, 1, 1, false), (0x00, 0, 1, false), (0x80, 0, 0, false)].all
      (fun e : Byte × Word × Word × Bool =>
        let c : Controller := { State.reset.ctl with cntr := e.1, acr := e.2.1, wtc := e.2.2.1 }
        (c.cntr.getLsbD 7 && c.acr.toNat % 2 == 0 && c.wtc != 0) == e.2.2.2) = true := by decide

theorem witness_CommodorePorts_and_IstrReadShowsTheInterrupt :
    (plain 0 0).ctl.cfg.variant = .cbmDmac ∧ (sel3 .cbmSdmac Target.fresh 0 0 0).ctl.cfg.variant = .cbmSdmac := by decide
theorem witness_GvpPorts :
    (sel3 .gvpS1 Target.fresh 0 0 0).ctl.cfg.variant = .gvpS1 ∧ (sel3 .gvpS2 Target.fresh 0 0 0).ctl.cfg.variant = .gvpS2 ∧
    Memory.find ({ (sel3 .gvpS1 Target.fresh 0 0 0).ctl with sram := [(0, 0x5A)] } : Controller).sram 0 = some 0x5A := by decide
theorem witness_GvpPorts_of_no_board :
    (sel3 .none Target.fresh 0 0 0).ctl.cfg.variant = .none ∧ Port.xtWindow ≠ .sel ∧ Port.xtWindow ≠ .dat ∧
    (∃ j, Port.wtc 3 = .wtc j) ∧ ∃ j, Port.acr 0 = .acr j := ⟨by decide, by decide, by decide, ⟨3, rfl⟩, 0, rfl⟩

/-- 20_memory.md R75, log 17: what a read of SRAMOFF answers. -/
theorem test_sramoff_read :
    (let s := at3 .gvpS1 Target.fresh 0 0 0 fun c => { c with sramOff := 5 }
     match s.portAccess .sramOff .read with
      | .done t d => decide (t = s) && decide (d = some 0)
      | .held => false
      | .refused _ => false) = true := by decide

/-- A transfer open for the DMA engine, started. -/
def ticking (v : Variant) (t : Target) (p : Byte) (tc : Count) (gcntr : Half) : State :=
  (sel3 v t p tc 0x80).upd fun c => { c with dataAvail := .dma, dmaActive := .started, gcntr := gcntr }

/-- The turn at a controller that is there, absent, torn down; then a state for each tick. -/
theorem witness_TickWithNothingToDrive :
    (let s : State := { plain 0 0 with turns := [.tick 0] }
     s.turns = [.tick 0] ∧ s.focus 0 = some s ∧ s.ctl.down = false ∧ s.focus 1 = none ∧
     (s.upd fun c => { c with down := true }).ctl.down = true) ∧
    (plain 0x45 1).ctl.dataAvail ≠ .dma ∧
    ((plain 0x45 1).upd fun c => { c with dataAvail := .dma }).ctl.dmaActive = .stopped ∧
    ((ticking .cbmDmac Target.fresh 0x45 1 0).upd fun c => { c with curTarget := none }).target = none ∧
    (let s := ticking .cbmDmac Target.fresh 0x45 1 0
     s.ctl.dataAvail = .dma ∧ s.ctl.dmaActive ≠ .stopped ∧ s.target = some Target.fresh ∧ Target.fresh.direction = .nothing) ∧
    ∀ v ∈ [Variant.gvpS2, .none],
      let t : Target := { Target.fresh with direction := .toDevice, dataLength := 4 }
      let s := ticking v t 0x45 4 0
      s.ctl.cfg.variant = v ∧ s.ctl.dataAvail = .dma ∧ s.ctl.dmaActive ≠ .stopped ∧ s.target = some t ∧
      t.direction ≠ .nothing ∧ s.ctl.gcntr.getLsbD 4 ≠ t.direction.isOut := by decide

/-- V31: a tick with no transfer open delivers a status that stands at 1. -/
theorem test_tick_polls :
    (let s := (plain 0 0).upd fun c => { c with queue := [{ status := 0x11, count := 1 }, { status := 0, count := 0 }] }
     (s.tick.ctl.auxInt, s.tick.ctl.reg 0x17, slots s.tick)) = (true, 0x11, [(0x11, 0), (0, 0)]) := by decide

/-- Inbound and outbound, at the target's length and before it, in every phase a clause names and beside it. -/
theorem witness_TickDrivesAnOpenTransfer :
    ([(.toHost, 0x0000), (.toDevice, 0x0010), (.command, 0x0010)] : List (Direction × Half)).all (fun e =>
      ([0x00, 0x1F, 0x20, 0x30, 0x44, 0x45, 0x46, 0x47, 0x50, 0x51] : List Byte).all fun p => [1, 2].all fun n =>
      let t : Target := { Target.fresh with direction := e.1, dataLength := n }
      let s := ticking .gvpS2 t p 1 e.2
      decide (s.ctl.dataAvail = .dma ∧ s.ctl.dmaActive ≠ .stopped) && decide (s.target = some t) &&
      decide (t.direction ≠ .nothing ∧ s.ctl.cfg.variant = .gvpS2) &&
      (s.ctl.gcntr.getLsbD 4 == decide (t.direction ≠ .toHost)) && s.ctl.regs[0x10] == p && !s.ctl.auxInt &&
      (s.ctl.queue.all fun x => decide (x.count ≠ 1)) && decide (pumpBytes s.ctl t = 1)) = true ∧
    (ticking .gvpS2 { Target.fresh with direction := .toHost, dataLength := 2 } 0x50 1 0).ctl.ok := ⟨by decide, by decide⟩

/-- R316, R240: a DMA-driven message-out. -/
theorem test_tick_message_out :
    (let t : Target := { Target.fresh with direction := .toDevice, dataLength := 1 }
     let s : State := { (ticking .gvpS2 t 0x10 1 0x0010).upd fun c => { c with gaddr := 0x40 } with mem := [(0x40, 0xC0)] }
     (s.tick.target.map Target.identify, s.tick.ctl.phase, s.tick.ctl.reg 0x17)) = (some 0xC0, 0x20, 0x1A) := by decide

/-- P4, line 8: the outbound tick delivers 0x1B. -/
theorem test_tick_outbound :
    (let t : Target := { writer 4 with direction := .toDevice, dataLength := 4 }
     let s : State := { (sel3 .gvpS2 t 0x45 4 0x80).upd fun c =>
       { c with dataAvail := .dma, dmaActive := .started, gcntr := 0x0018, gaddr := 0x1000 } with
         mem := [(0x1000, 0xAA), (0x1001, 0xBB), (0x1002, 0xCC), (0x1003, 0xDD)] }
     let u := s.tick
     (u.ctl.gaddr, u.ctl.phase, u.ctl.gcntr, u.irqLine, u.ctl.reg 0x17)) = (0x1004, 0x46, 0x001A, true, 0x1B) := by decide

/-- An event's turn, at a controller that is there, absent, torn down; a number not in use and one in use; parameters R8
allows and some it does not. -/
theorem witness_BoardResetAndTheOtherEvents :
    let s : State := { plain 0x45 1 with turns := [.external (.boardReset 0)] }
    s.turns = [.external (.boardReset 0)] ∧ s.focus 0 = some s ∧ s.ctl.down = false ∧ s.focus 1 = none ∧
    (s.upd fun c => { c with down := true }).ctl.down = true ∧ (∀ c ∈ s.controllers, c.slot ≠ 1) ∧
    (∃ c ∈ s.controllers, c.slot = 0) ∧ paramsLegal (defaultParams .gvpS1) = true ∧
    paramsLegal { defaultParams .gvpS1 with qcap := 0 } = false := by decide

/-- 60_exceptions.md R352, R355: the XT block's request raises the line in the same step. -/
theorem test_xt_request_recomputes :
    (match step { (plain 0 0).upd fun c => { c with cntr := 0x10 } with turns := [.external (.xtRequest 0 true)] } with
      | .next t => some (t.irqLine, t.ctl.istr)
      | .fault _ => none
      | .refused _ => none) = some (true, 0x40) := by decide

/-- Two boards, numbers 0 and 1. -/
def twoBoards : State :=
  { plain 0 0 with others := [Controller.construct 1 (defaultParams .gvpS2) (attach [2])] }

/-- A turn for the other board, and one for a number not in use. -/
theorem witness_InstructionsKeepToTheirController_focus :
    (twoBoards.focus 1).map (fun s => (s.ctl.slot, s.ctl.cfg.variant, s.others.map Controller.slot)) =
      some (1, .gvpS2, [0]) ∧ twoBoards.focus 2 = none ∧ twoBoards.focus 0 = some twoBoards := by decide

theorem witness_InstructionsKeepToTheirController_and_PhaseMovesByTheTable :
    ∃ t, exec (.reset false) State.reset = .next t := ⟨_, rfl⟩
theorem witness_OnlyPumpsChangeMemory :
    (∃ t, exec (.msgCmd 3 0x07) State.reset = .next t) ∧ carried (.msgCmd 3 0x07) = .sel false := ⟨⟨_, rfl⟩, by decide⟩
theorem witness_StepKeepsTheShape_and_StepKeepsTheLine :
    State.reset.Shape ∧ State.reset.LineOk ∧
    (State.reset.withFetchWord 32 0x03000007).Shape ∧ (State.reset.withFetchWord 32 0x03000007).LineOk ∧
    ∃ t, step (State.reset.withFetchWord 32 0x03000007) = .next t :=
  ⟨by decide, by decide, by decide, by decide, _, rfl⟩

end Sys2Proof.Tests
end

section
/-! The instructions as the acting controller's operations (00_scope.md R5, 60_exceptions.md R333, R373), and what a turn
for a numbered controller finds (R6). -/

namespace Sys2Proof.Machine

/-! ### Every instruction -/

/-- A command byte is a format C row: what it decodes to is never another MSG_CMD. -/
theorem decodeCommand_ne_msgCmd (b tid cmd : Byte) : decodeCommand b ≠ .msgCmd tid cmd := by
  unfold decodeCommand; dsimp only; split_ifs <;> exact Instr.noConfusion

theorem carried_ne_msgCmd (i : Instr) (tid cmd : Byte) : carried i ≠ .msgCmd tid cmd := by
  cases i with
  | msgCmd _ b => exact decodeCommand_ne_msgCmd b tid cmd
  | _ => exact Instr.noConfusion

/-- MSG_CMD does what the chip command it carries does (45_dispatch.md R306). -/
theorem exec_msgCmd (tid cmd : Byte) (s : State) : exec (.msgCmd tid cmd) s = exec (decodeCommand cmd) s := by
  show execMsgCmd tid cmd s = _
  unfold execMsgCmd decodeCommand; dsimp only
  split_ifs <;> rfl

theorem exec_carried (i : Instr) (s : State) : exec i s = exec (carried i) s := by
  cases i with
  | msgCmd tid cmd => exact exec_msgCmd tid cmd s
  | _ => rfl

namespace Acts

theorem execMsgShutdown (s : State) : Acts s (s.upd fun c => { c with workerAlive := false }) :=
  same s ⟨rfl, rfl, rfl, rfl, rfl, rfl, rfl, rfl, rfl, rfl⟩ rfl

theorem execTransInfo (sbt : Bool) (s : State) : ∃ t, Machine.execTransInfo sbt s = .next t ∧ Acts s t := by
  unfold Machine.execTransInfo
  split
  · exact ⟨s, rfl, refl s⟩
  · exact ⟨_, rfl, transferOpen s sbt _ ‹_›⟩

theorem execNegateAck (sbt : Bool) (s : State) : ∃ t, Machine.execNegateAck sbt s = .next t ∧ Acts s t := by
  unfold Machine.execNegateAck
  split
  · exact ⟨_, rfl, transferIn s false⟩
  · exact ⟨s, rfl, refl s⟩

/-- Every instruction completes, and is an operation of the acting controller. -/
theorem exec (i : Instr) (s : State) : ∃ t, Machine.exec i s = .next t ∧ Acts s t := by
  rw [exec_carried]
  have hc := carried_ne_msgCmd i
  generalize carried i = j at hc ⊢
  cases j with
  | msgCmd tid cmd => exact absurd rfl (hc tid cmd)
  | msgShutdown => exact ⟨_, rfl, execMsgShutdown s⟩
  | msgContIn => exact ⟨_, rfl, transferIn s false⟩
  | msgContOut => exact ⟨_, rfl, transferOut s⟩
  | msgContInMsg => exact ⟨_, rfl, transferIn s true⟩
  | msgUnknown => exact ⟨s, rfl, refl s⟩
  | reset => exact ⟨_, rfl, resetProc s true⟩
  | abort => exact ⟨s, rfl, refl s⟩
  | negateAck sbt => exact execNegateAck sbt s
  | selAtn => exact ⟨_, rfl, select s true⟩
  | sel => exact ⟨_, rfl, select s false⟩
  | selAtnXfer => exact ⟨_, rfl, selXfer s true⟩
  | selXfer => exact ⟨_, rfl, selXfer s false⟩
  | transInfo sbt => exact execTransInfo sbt s
  | invalid => exact ⟨_, rfl, post s CSR_INVALID fun c => c.cfg.tInvalid⟩

theorem of_exec {i : Instr} {s t : State} (h : Machine.exec i s = .next t) : Acts s t := by
  obtain ⟨u, hu, ha⟩ := exec i s
  obtain rfl : u = t := Host.Outcome.next.inj (hu.symm.trans h)
  exact ha

end Acts

/-! ### The controller a turn is for -/

theorem State.focus_self {s : State} {slot : Nat} (h : s.ctl.slot = slot) : s.focus slot = some s := by
  simp [State.focus, h]

theorem State.focus_eq_none_iff (s : State) (slot : Nat) :
    s.focus slot = none ↔ ∀ c ∈ s.controllers, c.slot ≠ slot := by
  unfold State.focus State.controllers
  split
  case isTrue h => simp [h]
  case isFalse h =>
    split
    case h_1 hn => simpa [h] using hn
    case h_2 c hc =>
      have hslot : c.slot = slot := by simpa using List.find?_some hc
      have hall : ¬∀ d ∈ s.ctl :: s.others, d.slot ≠ slot := fun hne =>
        hne c (List.mem_cons_of_mem _ (List.mem_of_find?_eq_some hc)) hslot
      simpa using hall

/-- All a turn for controller `slot` can find: it acts already, or it changes places with the one that acts. -/
theorem State.focus_cases {s s' : State} {slot : Nat} (h : s.focus slot = some s') :
    (s.ctl.slot = slot ∧ s' = s) ∨
    (s.ctl.slot ≠ slot ∧ ∃ c pre post, c.slot = slot ∧ s.others = pre ++ c :: post ∧
      s' = { s with ctl := c, others := s.ctl :: (pre ++ post) }) := by
  unfold State.focus at h
  split at h
  case isTrue hslot => exact .inl ⟨hslot, (Option.some.inj h).symm⟩
  case isFalse hslot =>
    split at h
    case h_1 => cases h
    case h_2 c hc =>
      obtain ⟨hcslot, pre, post, hsplit, hpre⟩ := List.find?_eq_some_iff_append.mp hc
      refine .inr ⟨hslot, c, pre, post, by simpa using hcslot, hsplit, ?_⟩
      have herase : s.others.eraseP (fun d => d.slot == slot) = pre ++ post := by
        rw [hsplit, List.eraseP_append_right _ fun d hd => by simpa using hpre d hd, 
        List.eraseP_cons_of_pos (p := fun d : Controller => d.slot == slot) hcslot]
      rw [← herase]
      exact (Option.some.inj h).symm

theorem State.focus_ctl_slot {s s' : State} {slot : Nat} (h : s.focus slot = some s') : s'.ctl.slot = slot := by
  obtain ⟨hslot, rfl⟩ | ⟨-, c, pre, post, hslot, -, rfl⟩ := State.focus_cases h
  · exact hslot
  · exact hslot

theorem State.focus_controllers_perm {s s' : State} {slot : Nat} (h : s.focus slot = some s') :
    s'.controllers.Perm s.controllers := by
  obtain ⟨-, rfl⟩ | ⟨-, c, pre, post, -, hothers, rfl⟩ := State.focus_cases h
  · exact .refl _
  · show (c :: s.ctl :: (pre ++ post)).Perm (s.ctl :: s.others)
    rw [hothers]
    exact (List.Perm.swap ..).trans (List.perm_middle.symm.cons _)

/-- The rest of the machine stands. -/
theorem State.focus_frame {s s' : State} {slot : Nat} (h : s.focus slot = some s') :
    s' = { s with ctl := s'.ctl, others := s'.others } := by
  obtain ⟨-, rfl⟩ | ⟨-, c, pre, post, -, -, rfl⟩ := State.focus_cases h
  · rfl
  · rfl

theorem State.focus_hostOps {s s' : State} {slot : Nat} (h : s.focus slot = some s') : s'.hostOps = s.hostOps := by
  rw [State.focus_frame h]

/-- Settles O55: an instruction acts on its own controller (`Acts`), and a turn finds the one it names
(`State.focus_cases`). -/
theorem instructionsKeepToTheirController : Obligations.InstructionsKeepToTheirController := by
  refine ⟨fun i s t h => ?_, fun s slot => ⟨s.focus_eq_none_iff slot, fun s' h => ?_⟩⟩
  · have a := Acts.of_exec h
    exact ⟨a.cfg, a.slot, a.others, a.memMap, a.turns, a.hostOps, a.hostHeld, a.hostData⟩
  · refine ⟨State.focus_ctl_slot h, State.focus_controllers_perm h, State.focus_frame h, fun hslot => ?_⟩
    rw [State.focus_self hslot] at h
    exact (Option.some.inj h).symm

end Sys2Proof.Machine
end

section
/-! The host's turn (00_scope.md R11, R12; 20_memory.md R71 to R76; 45_dispatch.md R322): what each answer of the acting
controller makes of the step, then each kind of access. -/

namespace Sys2Proof.Machine

/-! ### The step, by the answer -/

theorem step_host {s : State} {ts : List Turn} (ht : s.turns = .host :: ts) :
    step s = { s with turns := ts }.hostTurn := by
  simp only [step, ht, State.turn]

theorem step_host_free {s : State} {ts : List Turn} (ht : s.turns = .host :: ts) (hh : s.hostHeld = none) :
    step s = { s with turns := ts }.hostProceeds :=
  (step_host ht).trans (State.hostTurn_free hh)

/-- With nothing pending the turn passes. -/
theorem step_host_idle {s : State} {ts : List Turn} (ht : s.turns = .host :: ts) (ho : s.hostOps = []) :
    step s = .next { s with turns := ts } := by
  rw [step_host ht]
  simp only [State.hostTurn, State.hostProceeds, ho, ite_self]

theorem step_host_held {s : State} {ts : List Turn} (ht : s.turns = .host :: ts) (hh : s.hostHeld ≠ none) :
    step s = .next { s with turns := ts } := by
  obtain ⟨k, hk⟩ := Option.ne_none_iff_exists'.mp hh
  rw [step_host ht]
  exact State.hostTurn_held hk

section
variable {s s' : State} {ts : List Turn} {op : HostOp} {ops : List HostOp}
  (ht : s.turns = .host :: ts) (hh : s.hostHeld = none) (ho : s.hostOps = op :: ops)
include ht hh ho

theorem step_host_absent (hf : { s with turns := ts, hostOps := ops }.focus op.slot = none) :
    step s = .next { s with turns := ts, hostOps := ops } := by
  rw [step_host_free ht hh]
  simp only [State.hostProceeds, ho, hf]

variable (hf : { s with turns := ts, hostOps := ops }.focus op.slot = some s')
include hf

theorem step_host_dropped (hk : s'.ctl.takes op = false) : step s = .next { s with turns := ts, hostOps := ops } := by
  rw [step_host_free ht hh]
  simp only [State.hostProceeds, ho, hf, hk, Bool.false_eq_true, if_false]

variable (hk : s'.ctl.takes op = true)
include hk

theorem step_host_done {u : State} (ha : s'.hostAccess op = .done u) : step s = .next u := by
  rw [step_host_free ht hh]
  simp only [State.hostProceeds, ho, hf, hk, ha, if_true]

theorem step_host_waits (ha : s'.hostAccess op = .waits) : step s = .next { s with turns := ts } := by
  rw [step_host_free ht hh]
  simp only [State.hostProceeds, ho, hf, hk, ha, if_true]

theorem step_host_refused {r : Refusal} (ha : s'.hostAccess op = .refused r) : step s = .refused r := by
  rw [step_host_free ht hh]
  simp only [State.hostProceeds, ho, hf, hk, ha, if_true]

end

/-! ### What a controller takes -/

theorem Controller.takes_of_down {c : Controller} (h : c.down = true) (op : HostOp) : c.takes op = false := by
  simp [Controller.takes, h]

theorem Controller.takes_port {c : Controller} (hd : c.down = false) (slot : Nat) (p : Port) (a : Access) :
    c.takes (.port slot p a) = c.enabled := by
  simp [Controller.takes, hd]

theorem Controller.takes_page {c : Controller} (hd : c.down = false) (slot off : Nat) (w : Width) (a : Access)
    (joined : Bool) : c.takes (.page slot off w a joined) = c.enabled := by
  simp [Controller.takes, hd]

theorem Controller.takes_teardown {c : Controller} (hd : c.down = false) (slot : Nat) :
    c.takes (.teardown slot) = true := by
  simp [Controller.takes, hd]

theorem Controller.takes_awaitExit {c : Controller} (hd : c.down = false) (slot : Nat) :
    c.takes (.awaitExit slot) = true := by
  simp [Controller.takes, hd]

/-- A controller that is not enabled takes no register access (10_state.md R49). -/
theorem Controller.takes_of_disabled {c : Controller} (h : c.enabled = false) {op : HostOp}
    (hop : (∃ slot p a, op = .port slot p a) ∨ ∃ slot off w a joined, op = .page slot off w a joined) :
    c.takes op = false := by
  obtain ⟨slot, p, a, rfl⟩ | ⟨slot, off, w, a, joined, rfl⟩ := hop
  · simp [Controller.takes, h]
  · simp [Controller.takes, h]

/-! ### The port's answer -/

theorem finishAccess_done (u : State) (d : Option Word) (w : Width) (joined : Bool) :
    finishAccess (.done u d) w joined =
      .done { u with hostData := (d.map fun d => joinData u.hostData d w joined).getD u.hostData } := by
  cases d with
  | none => rfl
  | some d => rfl

/-- The earlier parts of a wider access, above the new data (log 15). -/
theorem joinData_eq_or {w : Width} (hw : w ≠ .long) (old data : Word) (joined : Bool) :
    joinData old data w joined =
      (if joined then (if w = .byte then old <<< 8 else old <<< 16) else 0) ||| data := by
  cases joined with
  | false => exact BitVec.zero_or.symm
  | true =>
    cases w with
    | byte => rfl
    | word => rfl
    | long => exact absurd rfl hw

theorem joinData_zero {w : Width} (hw : w ≠ .long) (old : Word) (joined : Bool) :
    joinData old 0 w joined = if joined then (if w = .byte then old <<< 8 else old <<< 16) else 0 :=
  (joinData_eq_or hw old 0 joined).trans BitVec.or_zero

/-- The XT window is out of scope (00_scope.md R4). -/
theorem State.portAccess_xtWindow {s : State} (hv : s.ctl.cfg.variant = .cbmDmac ∨ s.ctl.cfg.variant = .cbmSdmac)
    (a : Access) : s.portAccess .xtWindow a = .refused .xtWindow := by
  have hp : hasPort s.ctl.cfg.variant .xtWindow = true := by
    obtain hv | hv := hv <;> rw [hv] <;> rfl
  unfold State.portAccess
  rw [if_pos hp]
  cases a with
  | read => rfl
  | write v => rfl

/-- A named port operation keeps what it read whole. -/
theorem State.hostAccess_port {s u : State} {p : Port} {a : Access} {d : Option Word} (h : s.portAccess p a = .done u d)
    (slot : Nat) : s.hostAccess (.port slot p a) = .done { u with hostData := d.getD u.hostData } := by
  simp only [State.hostAccess, h]
  cases d with
  | none => rfl
  | some d => rfl

/-! ### Accesses by offset -/

theorem splitAccess_byte (port : Option Port) (slot off : Nat) (a : Access) (joined : Bool) :
    splitAccess port slot off .byte a joined = [] := rfl

theorem wordPort_eq_true_iff (p : Port) : wordPort p = true ↔ p = .sel ∨ p = .dat := by
  simp [wordPort]

/-- A word access at SEL or DAT is one bus access (20_memory.md R73). -/
theorem splitAccess_word_chip {p : Port} (hp : p = .sel ∨ p = .dat) (slot off : Nat) (a : Access) (joined : Bool) :
    splitAccess (some p) slot off .word a joined = [] := by
  have hw : (some p).any wordPort = true := (wordPort_eq_true_iff p).mpr hp
  cases a with
  | read => simp only [splitAccess, hw, if_true]
  | write v => simp only [splitAccess, hw, if_true]

theorem any_wordPort_eq_false {port : Option Port} (hs : port ≠ some .sel) (hd : port ≠ some .dat) :
    port.any wordPort = false := by
  cases port with
  | none => rfl
  | some p =>
    have hp : ¬(p = .sel ∨ p = .dat) := fun h => h.elim (fun e => hs (e ▸ rfl)) fun e => hd (e ▸ rfl)
    exact Bool.eq_false_iff.mpr fun h => hp ((wordPort_eq_true_iff p).mp h)

theorem splitAccess_word_read {port : Option Port} (h : port.any wordPort = false) (slot off : Nat) (joined : Bool) :
    splitAccess port slot off .word .read joined =
      [.page slot off .byte .read joined, .page slot (off + 1) .byte .read true] := by
  simp only [splitAccess, h, Bool.false_eq_true, if_false]

theorem splitAccess_word_write {port : Option Port} (h : port.any wordPort = false) (slot off : Nat) (v : Word)
    (joined : Bool) : splitAccess port slot off .word (.write v) joined =
      [.page slot off .byte (.write ((v.extractLsb' 8 8).zeroExtend 32)) joined,
       .page slot (off + 1) .byte (.write ((v.extractLsb' 0 8).zeroExtend 32)) joined] := by
  simp only [splitAccess, h, Bool.false_eq_true, if_false]

/-- An access that is one bus access is the port's. -/
theorem State.hostPage_single {s u : State} {slot off : Nat} {w : Width} {a : Access} {joined : Bool} {d : Option Word}
    (hs : splitAccess (s.ctl.portAt off) slot off w a joined = []) (hp : s.pageAccess off a = .done u d) :
    s.hostPage slot off w a joined =
      .done { u with hostData := (d.map fun d => joinData u.hostData d w joined).getD u.hostData } := by
  simp only [State.hostPage, hs, hp, finishAccess_done]

/-- An access that is more than one bus access leaves its parts pending. -/
theorem State.hostPage_split {s : State} {slot off : Nat} {w : Width} {a : Access} {joined : Bool} {op : HostOp}
    {ops : List HostOp} (h : splitAccess (s.ctl.portAt off) slot off w a joined = op :: ops) :
    s.hostPage slot off w a joined = .done { s with hostOps := op :: ops ++ s.hostOps } := by
  simp only [State.hostPage, h]

/-- A byte access, or a word access at SEL or DAT, is the operation of the port named there. -/
theorem State.hostPage_port {s u : State} {off : Nat} {p : Port} {w : Width} {a : Access} {d : Option Word}
    (hp : s.ctl.portAt off = some p) (hw : w = .byte ∨ (w = .word ∧ (p = .sel ∨ p = .dat)))
    (ha : s.portAccess p a = .done u d) (slot : Nat) (joined : Bool) :
    s.hostPage slot off w a joined =
      .done { u with hostData := (d.map fun d => joinData u.hostData d w joined).getD u.hostData } := by
  have hpage : s.pageAccess off a = .done u d := by simp only [State.pageAccess, hp, ha]
  refine State.hostPage_single ?_ hpage
  rw [hp]
  obtain rfl | ⟨rfl, hp⟩ := hw
  · exact splitAccess_byte _ slot off a joined
  · exact splitAccess_word_chip hp slot off a joined

/-- A byte read where nothing is named gives 0 (20_memory.md R75). -/
theorem State.hostPage_unnamed_read {s : State} {off : Nat} (hp : s.ctl.portAt off = none) (slot : Nat)
    (joined : Bool) :
    s.hostPage slot off .byte .read joined = .done { s with hostData := joinData s.hostData 0 .byte joined } := by
  simp only [State.hostPage, splitAccess_byte, State.pageAccess, hp, unnamedAccess, finishAccess]

/-- A byte write where nothing is named does nothing (R75). -/
theorem State.hostPage_unnamed_write {s : State} {off : Nat} (hp : s.ctl.portAt off = none) (slot : Nat) (v : Word)
    (joined : Bool) : s.hostPage slot off .byte (.write v) joined = .done s := by
  simp only [State.hostPage, splitAccess_byte, State.pageAccess, hp, unnamedAccess, finishAccess]

theorem State.hostPage_xtWindow {s : State} {off : Nat} (hp : s.ctl.portAt off = some .xtWindow)
    (hv : s.ctl.cfg.variant = .cbmDmac ∨ s.ctl.cfg.variant = .cbmSdmac) (slot : Nat) (a : Access) (joined : Bool) :
    s.hostPage slot off .byte a joined = .refused .xtWindow := by
  simp only [State.hostPage, splitAccess_byte, State.pageAccess, hp, State.portAccess_xtWindow hv, finishAccess]

/-! ### Teardown (45_dispatch.md R322) -/

theorem State.teardown_of_room {s : State} (h : s.ctl.cmdq.length < s.ctl.cfg.cmdqCap) (slot : Nat) :
    s.teardown slot = .done { s with
      hostOps := .awaitExit slot :: s.hostOps, ctl := { s.ctl with cmdq := s.ctl.cmdq ++ [s.ctl.cfg.shutdown] } } := by
  simp only [State.teardown, State.enqueue, if_pos h, State.upd]

theorem State.awaitExit_of_alive {s : State} (h : s.ctl.workerAlive = true) : s.awaitExit = .waits := by
  simp only [State.awaitExit, h, if_true]

theorem State.awaitExit_of_exited {s : State} (h : s.ctl.workerAlive = false) :
    s.awaitExit = .done (s.upd fun c => { c with down := true }) := by
  simp only [State.awaitExit, h, Bool.false_eq_true, if_false]

/-- Settles O7, access by access: the step is the acting controller's answer. -/
theorem hostTurnPerformsTheAccess : Obligations.HostTurnPerformsTheAccess := by
  refine ⟨fun s s' ts op ops ht hh ho hf hd => ⟨?port, ?page, ?xtWindow, ?teardown, ?awaitExit⟩, ?passes, ?mirror,
    fun k => ?commodore, fun v k hv => ?gvp⟩
  case port =>
    rintro slot p a u d rfl hen ha
    exact step_host_done ht hh ho hf ((Controller.takes_port hd ..).trans hen) (State.hostAccess_port ha slot)
  case page =>
    rintro slot off w a joined rfl hen
    have hops : s'.hostOps = ops := State.focus_hostOps hf
    have hk : s'.ctl.takes (.page slot off w a joined) = true := (Controller.takes_page hd ..).trans hen
    have hdone {u : State} (hu : s'.hostPage slot off w a joined = .done u) : step s = .next u :=
      step_host_done ht hh ho hf hk hu
    refine ⟨fun p u d hp hw ha => ?_, fun hp hw => ?_, fun hw hsel hdat => ?_, fun hw => ?_, fun hp hw hv => ?_⟩
    · rw [hdone (State.hostPage_port hp hw ha slot joined)]
      cases d with
      | none => rfl
      | some d =>
        have hlong : w ≠ .long := by rintro rfl; simp at hw
        simp only [Option.map_some, Option.getD_some, joinData_eq_or hlong]
    · subst hw
      cases a with
      | read =>
        rw [hdone (State.hostPage_unnamed_read hp slot joined), joinData_zero Width.noConfusion]
      | write v => exact hdone (State.hostPage_unnamed_write hp slot v joined)
    · subst hw hops
      have hport := any_wordPort_eq_false hsel hdat
      cases a with
      | read => exact hdone (State.hostPage_split (splitAccess_word_read hport slot off joined))
      | write v => exact hdone (State.hostPage_split (splitAccess_word_write hport slot off v joined))
    · subst hw hops
      cases a with
      | read => exact hdone rfl
      | write v => exact hdone rfl
    · subst hw
      exact step_host_refused ht hh ho hf hk (State.hostPage_xtWindow hp hv slot a joined)
  case xtWindow =>
    rintro slot a rfl hen hv
    refine step_host_refused ht hh ho hf ((Controller.takes_port hd ..).trans hen) ?_
    simp only [State.hostAccess, State.portAccess_xtWindow hv, finishAccess]
  case teardown =>
    rintro slot rfl hroom
    have hops : s'.hostOps = ops := State.focus_hostOps hf
    subst hops
    exact step_host_done ht hh ho hf (Controller.takes_teardown hd slot) (State.teardown_of_room hroom slot)
  case awaitExit =>
    rintro slot rfl
    have hk := Controller.takes_awaitExit hd slot
    exact ⟨fun hw => step_host_waits ht hh ho hf hk (State.awaitExit_of_alive hw),
      fun hw => step_host_done ht hh ho hf hk (State.awaitExit_of_exited hw)⟩
  case passes =>
    refine fun s ts ht => ⟨step_host_held ht, fun _ => step_host_idle ht, fun op ops hh ho =>
      ⟨step_host_absent ht hh ho, fun s' hf hno => step_host_dropped ht hh ho hf ?_⟩⟩
    obtain hdown | ⟨hdis, hop⟩ := hno
    · exact Controller.takes_of_down hdown op
    · exact Controller.takes_of_disabled hdis hop
  case mirror => rintro v (rfl | rfl) <;> decide
  case commodore => revert k; decide
  case gvp => obtain rfl | rfl := hv <;> revert k <;> decide

end Sys2Proof.Machine
end

section
/-! The transfer counter (10_state.md R23). -/

namespace Sys2Proof.Machine

/-- Three bytes side by side, as a number. -/
theorem toNat_append_bytes (a b c : Byte) : (a ++ b ++ c).toNat = a.toNat * 65536 + b.toNat * 256 + c.toNat := by
  rw [BitVec.toNat_append, BitVec.toNat_append, ← Nat.shiftLeft_add_eq_or_of_lt b.isLt,
    ← Nat.shiftLeft_add_eq_or_of_lt c.isLt, Nat.shiftLeft_eq, Nat.shiftLeft_eq]
  omega

/-- Settles O9: the counter is its three bytes side by side, and a write of it is three register writes. -/
theorem transferCounterIsThreeRegisters : Obligations.TransferCounterIsThreeRegisters :=
  fun c _ => ⟨toNat_append_bytes (c.reg TC_MSB) (c.reg TC_MID) (c.reg TC_LSB), rfl⟩

end Sys2Proof.Machine
end

section
/-! The tick and a board reset leave the command queue alone (45_dispatch.md R315, R321): it grows by a host access only
and shrinks by a worker step only. -/

namespace Sys2Proof.Machine

@[simp] theorem State.recompute_cmdq (s : State) : s.recompute.ctl.cmdq = s.ctl.cmdq := rfl

@[simp] theorem State.orDraw_ctl (s : State) (v : Option Byte) : (s.orDraw v).1.ctl = s.ctl := by
  unfold State.orDraw; split <;> rfl

@[simp] theorem State.memWrite_ctl (s : State) (a : Word) (v : Byte) : (s.memWrite a v).ctl = s.ctl := by
  unfold State.memWrite; split <;> rfl

@[simp] theorem State.recv_ctl (s : State) (t : Target) (p : Byte) : (s.recv t p).1.ctl = s.ctl := by
  obtain ⟨n, hn⟩ := Acts.recv_fst s t p
  rw [hn]

/-! ### The pumps (44_dma_engines.md) -/

@[simp] theorem State.wtcStep_cmdq (s : State) : s.wtcStep.ctl.cmdq = s.ctl.cmdq := by
  unfold State.wtcStep; dsimp only; split_ifs <;> rfl

@[simp] theorem State.pumpStore_cmdq (s : State) (b : Byte) : (s.pumpStore b).ctl.cmdq = s.ctl.cmdq := by
  unfold State.pumpStore; split <;> simp

@[simp] theorem State.pumpFetch_cmdq (s : State) : s.pumpFetch.1.ctl.cmdq = s.ctl.cmdq := by
  unfold State.pumpFetch; split <;> simp [State.memRead, State.drawByte]

@[simp] theorem State.pumpAdvance_cmdq (s : State) (inbound : Bool) : (s.pumpAdvance inbound).ctl.cmdq = s.ctl.cmdq := by
  unfold State.pumpAdvance; split <;> simp

@[simp] theorem State.pumpCount_cmdq (s : State) (inbound : Bool) (b : Byte) (ended : Bool) :
    (s.pumpCount inbound b ended).1.ctl.cmdq = s.ctl.cmdq := by
  simp [State.pumpCount]

@[simp] theorem State.pumpByte_cmdq (s : State) (t : Target) : (s.pumpByte t).1.ctl.cmdq = s.ctl.cmdq := by
  unfold State.pumpByte; split <;> simp

@[simp] theorem State.pumpLoop_cmdq (n : Nat) (s : State) : (State.pumpLoop n s).ctl.cmdq = s.ctl.cmdq := by
  induction n generalizing s with
  | zero => rfl
  | succ n ih =>
    unfold State.pumpLoop; split
    · rfl
    · split
      · simp
      · rw [ih, State.pumpByte_cmdq]

@[simp] theorem State.pump_cmdq (s : State) : s.pump.1.ctl.cmdq = s.ctl.cmdq := by
  unfold State.pump; split
  · rfl
  · split_ifs <;> simp

/-! ### The callbacks (43_transfer_callbacks.md) -/

@[simp] theorem State.modTarget_cmdq (s : State) (f : Target → Target) : (s.modTarget f).ctl.cmdq = s.ctl.cmdq := by
  unfold State.modTarget; split <;> simp

@[simp] theorem State.beginTarget_cmdq (s : State) : s.beginTarget.ctl.cmdq = s.ctl.cmdq := s.modTarget_cmdq _

@[simp] theorem State.analyzeTarget_cmdq (s : State) : s.analyzeTarget.ctl.cmdq = s.ctl.cmdq := by
  unfold State.analyzeTarget; split
  · rfl
  · rename_i t _
    obtain ⟨n, hn⟩ := Acts.analyze_fst s t
    simp [hn]

@[simp] theorem State.executeTarget_cmdq (s : State) : s.executeTarget.ctl.cmdq = s.ctl.cmdq := by
  unfold State.executeTarget; split
  · rfl
  · rename_i t _
    obtain ⟨n, hn⟩ := Acts.execute_fst s t
    simp [hn]

@[simp] theorem Controller.advanceTail_cmdq (c : Controller) (st : Byte) : (c.advanceTail st).cmdq = c.cmdq := rfl

@[simp] theorem State.messageSent_cmdq (s : State) : s.messageSent.ctl.cmdq = s.ctl.cmdq := by
  simp [State.messageSent]

@[simp] theorem State.commandAnalyzed_cmdq (s : State) (t : Target) : (s.commandAnalyzed t).ctl.cmdq = s.ctl.cmdq := by
  unfold State.commandAnalyzed; split
  · simp
  · dsimp only; split
    · simp
    · split_ifs <;> simp

@[simp] theorem State.commandSent_cmdq (s : State) : s.commandSent.ctl.cmdq = s.ctl.cmdq := by
  unfold State.commandSent; split <;> simp

@[simp] theorem State.dataSent_cmdq (s : State) (t : Target) : (s.dataSent t).ctl.cmdq = s.ctl.cmdq := by
  unfold State.dataSent; dsimp only; split_ifs <;> simp

@[simp] theorem State.transferOut_cmdq (s : State) : s.transferOut.1.ctl.cmdq = s.ctl.cmdq := by
  unfold State.transferOut; split
  · rfl
  · split_ifs <;> simp

@[simp] theorem State.inAdvance_cmdq (s : State) (next st : Byte) : (s.inAdvance next st).ctl.cmdq = s.ctl.cmdq := by
  simp [State.inAdvance]

@[simp] theorem State.transferIn_cmdq (s : State) (m : Bool) : (s.transferIn m).1.ctl.cmdq = s.ctl.cmdq := by
  unfold State.transferIn; split
  · rfl
  · dsimp only; split_ifs <;> simp

/-! ### The tick and board reset (45_dispatch.md) -/

@[simp] theorem State.dmaContinue_cmdq (s : State) : s.dmaContinue.ctl.cmdq = s.ctl.cmdq := by
  unfold State.dmaContinue State.dmaDrive; split
  · split
    · rfl
    · dsimp only; split_ifs <;> simp
  · rfl

theorem Controller.deliver_foldl_cmdq (l : List Byte) (c : Controller) :
    (l.foldl Controller.deliver c).cmdq = c.cmdq := by
  induction l generalizing c with
  | nil => rfl
  | cons b l ih => exact ih _

@[simp] theorem Controller.pollOnce_cmdq (c : Controller) : c.pollOnce.cmdq = c.cmdq := by
  unfold Controller.pollOnce; split
  · rfl
  · exact Controller.deliver_foldl_cmdq _ _

@[simp] theorem State.tick_cmdq (s : State) : s.tick.ctl.cmdq = s.ctl.cmdq := by simp [State.tick]

@[simp] theorem Controller.resetChip_cmdq (c : Controller) : c.resetChip.cmdq = c.cmdq := by
  simp only [Controller.resetChip, (Acts.zeroRegs_same resetRegs c).1.cmdq]

@[simp] theorem State.boardReset_cmdq (s : State) : s.boardReset.ctl.cmdq = s.ctl.cmdq := by
  simp [State.boardReset, State.resetProc]

end Sys2Proof.Machine
end

section
/-! The host's accesses as the acting controller's operations (40_register_access.md, 44_dma_engines.md): each keeps the
controller sound, or is held at a full command queue (45_dispatch.md R302). -/

namespace Sys2Proof.Machine

/-! ### The words the block enqueues (R111, R310) -/

theorem mtype_messageWord (tid : Byte) (mtype : Half) (cmd : Byte) :
    (messageWord tid mtype cmd).extractLsb' 8 16 = mtype := by
  apply BitVec.eq_of_getLsbD_eq
  intro i hi
  simp only [messageWord, BitVec.getLsbD_extractLsb', BitVec.getLsbD_append]
  simp [hi]

theorem knownMessage_messageWord {mtype : Half}
    (h : mtype = MTYPE_CMD ∨ mtype = MTYPE_CONT_IN ∨ mtype = MTYPE_CONT_OUT ∨ mtype = MTYPE_CONT_IN_MSG)
    (sentinel : Word) (tid cmd : Byte) : knownMessage sentinel (messageWord tid mtype cmd) = true := by
  unfold knownMessage decodeMessage
  dsimp only
  rw [mtype_messageWord]
  by_cases hs : messageWord tid mtype cmd = sentinel
  · rw [if_pos hs]
  · rw [if_neg hs]
    obtain rfl | rfl | rfl | rfl := h <;> rfl

theorem knownMessage_sentinel (sentinel : Word) : knownMessage sentinel sentinel = true := by
  simp [knownMessage, decodeMessage]

theorem knownMessage_continueInType (sentinel : Word) (tid phase cmd : Byte) :
    knownMessage sentinel (messageWord tid (continueInType phase) cmd) = true := by
  refine knownMessage_messageWord ?_ sentinel tid cmd
  unfold continueInType; split
  · exact .inr (.inr (.inr rfl))
  · exact .inr (.inl rfl)

/-! ### An operation that may be held -/

/-- The acting controller's command queue has no room. -/
def Controller.Full (c : Controller) : Prop := c.cfg.cmdqCap ≤ c.cmdq.length

/-- `r` comes from `s` by an operation of the acting controller, or the operation is held at a full queue. -/
def ActsOrHeld (s : State) (r : Option State) : Prop :=
  match r with
  | none => s.ctl.Full
  | some t => Acts s t

namespace ActsOrHeld

/-- An operation that may be held, after one that is not and leaves the command queue alone. -/
theorem after {s t : State} {r : Option State} (h : Acts s t) (hq : t.ctl.cmdq = s.ctl.cmdq) (k : ActsOrHeld t r) :
    ActsOrHeld s r := by
  cases r with
  | none =>
    have k : t.ctl.cfg.cmdqCap ≤ t.ctl.cmdq.length := k
    rwa [h.cfg, hq] at k
  | some u => exact h.trans k

/-- An operation that may be held, then one that is not. -/
theorem map {s : State} {r : Option State} {f : State → State} (h : ActsOrHeld s r) (hf : ∀ t, Acts t (f t)) :
    ActsOrHeld s (r.map f) := by
  cases r with
  | none => exact h
  | some t => exact Acts.trans h (hf t)

theorem enqueue (s : State) {w : Word} (hw : knownMessage s.ctl.cfg.shutdown w = true) : ActsOrHeld s (s.enqueue w) := by
  unfold State.enqueue
  split
  case isTrue hroom =>
    refine Acts.upd s (fun ⟨h1, h2, ⟨_, h3⟩, h4⟩ => ⟨h1, h2, ⟨?_, ?_⟩, h4⟩) rfl rfl
    · simpa using hroom
    · simp only [List.all_append, h3, List.all_cons, hw, List.all_nil, Bool.and_self]
  case isFalse hfull => exact Nat.not_lt.mp hfull

end ActsOrHeld

/-! ### The chip's registers (40_register_access.md) -/

namespace ActsOrHeld

theorem pioClose (s : State) (ended : Bool) {mtype : Half}
    (hw : knownMessage s.ctl.cfg.shutdown (messageWord s.ctl.curTid mtype 0) = true) :
    ActsOrHeld s (s.pioClose ended mtype) := by
  unfold State.pioClose
  split
  · exact after (Acts.same s (by constructor <;> rfl) rfl) rfl (enqueue _ hw)
  · exact Acts.same s (by constructor <;> rfl) rfl

theorem readData (s : State) : ActsOrHeld s (s.readData.map Prod.fst) := by
  unfold State.readData
  split
  · exact Acts.refl s
  · rename_i t ht
    split
    · exact Acts.refl s
    · have hrecv := Acts.recv s t s.ctl.phase ht
      have hctl := State.recv_ctl s t s.ctl.phase
      dsimp only
      generalize s.recv t s.ctl.phase = r at hrecv hctl ⊢
      have hmoved : Acts s (r.1.upd fun c =>
          (((c.setTarget r.2.1).setReg DATA r.2.2.1).mirror r.2.2.1).decTc.1) :=
        (hrecv.trans (Acts.same _ (f := fun c => c.setReg DATA r.2.2.1) (Controller.setReg_same _ _ _) rfl)).trans
          ((Acts.mirror _ _).trans (Acts.decTc _))
      rw [Option.map_map]
      show ActsOrHeld s (Option.map id _)
      rw [Option.map_id]
      exact after hmoved (by simp [hctl]) (pioClose _ _ (knownMessage_continueInType _ _ _ _))

theorem writeData (s : State) (v : Byte) : ActsOrHeld s (s.writeData v) := by
  unfold State.writeData
  dsimp only
  have h0 : Acts s (s.upd fun c => c.setReg DATA v) := Acts.same s (Controller.setReg_same _ _ _) rfl
  generalize hu : s.upd (fun c => c.setReg DATA v) = u at h0 ⊢
  have hq : u.ctl.cmdq = s.ctl.cmdq := by rw [← hu]; rfl
  split
  · exact h0
  · rename_i t ht
    split
    · exact h0
    · refine after h0 hq (after (((Acts.mirror u v).trans (Acts.decTc _)).trans
        (Acts.setTarget _ (t₀ := t) ?_ (Acts.send_data t v))) ?_ (pioClose _ _ ?_))
      · exact ht.symm ▸ Controller.target_decTc _
      · simp
      · exact knownMessage_messageWord (.inr (.inr (.inl rfl))) _ _ _

theorem writeCommand (s : State) (v : Byte) : ActsOrHeld s (s.writeCommand v) :=
  after (Acts.same s (by constructor <;> rfl) rfl) rfl
    (enqueue _ (knownMessage_messageWord (.inl rfl) _ _ _))

end ActsOrHeld

/-- The unused bits of `istr` are stored as zero (10_state.md R41). -/
theorem Controller.istr_of_ok {c : Controller} (h : c.ok) : c.istr &&& 0x9F = 0 := by
  obtain ⟨-, -, -, ⟨-, -, hi⟩, -⟩ := h
  exact hi

theorem Acts.acknowledge (s : State) : Acts s s.acknowledge.1 := by
  refine Acts.trans (t := s.upd _) (Acts.upd s (fun h => ?_) ?_ ?_) (Acts.recompute _)
  · have hacked : { s.ctl with auxInt := false }.ok := Controller.SameOk.ok (by constructor <;> rfl) h
    have hi := Controller.istr_clearBits ISTR_INTS (Controller.istr_of_ok h)
    split
    · exact Controller.ok_istr hacked hi
    · exact Controller.ok_istr hacked hi
    · exact Controller.SameOk.ok (by constructor <;> rfl) hacked
    · exact hacked
    · exact hacked
  · split <;> rfl
  · split <;> rfl

theorem Controller.advancePointer_same (c : Controller) (afterWrite : Bool) :
    SameOk c (c.advancePointer afterWrite) ∧ (c.advancePointer afterWrite).slot = c.slot := by
  unfold Controller.advancePointer
  split_ifs
  · exact ⟨.rfl' c, rfl⟩
  · exact ⟨.rfl' c, rfl⟩
  · exact ⟨by constructor <;> rfl, rfl⟩

theorem Acts.advancePointer (s : State) (afterWrite : Bool) : Acts s (s.upd fun c => c.advancePointer afterWrite) :=
  same s (Controller.advancePointer_same _ _).1 (Controller.advancePointer_same _ _).2

namespace ActsOrHeld

theorem readRegister (s : State) (p : RegNum) : ActsOrHeld s ((s.readRegister p).map Prod.fst) := by
  unfold State.readRegister
  split_ifs
  · exact Acts.refl s
  · exact Acts.acknowledge s
  · exact readData s
  · exact Acts.refl s

theorem writeRegister (s : State) (p : RegNum) (v : Byte) : ActsOrHeld s (s.writeRegister p v) := by
  unfold State.writeRegister
  split_ifs
  · exact Acts.refl s
  · exact Acts.same s (Controller.setReg_same _ _ _) rfl
  · exact writeCommand s v
  · exact writeData s v
  · exact Acts.same s (Controller.setReg_same _ _ _) rfl

theorem datRead (s : State) : ActsOrHeld s (s.datRead.map Prod.fst) := by
  have h := (readRegister s s.ctl.sasr).map fun t => Acts.advancePointer t false
  rw [Option.map_map] at h
  rwa [State.datRead, Option.map_map]

theorem datWrite (s : State) (v : Byte) : ActsOrHeld s (s.datWrite v) :=
  (writeRegister s s.ctl.sasr v).map fun t => Acts.advancePointer t true

end ActsOrHeld

/-! ### The board's ports (44_dma_engines.md) -/

/-- `r` answers an access of the acting controller of `s`: an operation of that controller, a hold at its full queue, or
a refusal. -/
def PortAnswer.Answers (s : State) (r : PortAnswer) : Prop :=
  match r with
  | .held => s.ctl.Full
  | .refused _ => True
  | .done t _ => Acts s t

theorem Acts.strobe {s t : State} (h : Acts s t) (a : Access) : (strobe t a).Answers s := by
  cases a with
  | read => exact h.trans (draw t _)
  | write v => exact h

theorem Acts.unnamedAccess (s : State) (a : Access) : (unnamedAccess s a).Answers s := by
  cases a with
  | read => exact refl s
  | write v => exact refl s

theorem Acts.cint (s : State) : Acts s s.cint :=
  (upd s (f := fun c => { c with istr := clearBits (clearBits c.istr ISTR_INTS) ISTR_E_INT })
    (fun h => Controller.ok_istr h
      (Controller.istr_clearBits _ (Controller.istr_clearBits _ (Controller.istr_of_ok h)))) rfl rfl).trans (recompute _)

theorem Acts.dmaActive (s : State) (v : DmaActive) : Acts s (s.upd fun c => { c with dmaActive := v }) :=
  same s (by constructor <;> rfl) rfl

/-- A change of `sramOff` that keeps it below SRAM_SIZE (10_state.md R43). -/
theorem Acts.sramOff (s : State) (n : Nat) : Acts s (s.upd fun c => { c with sramOff := n % c.cfg.sramSize }) := by
  refine upd s (fun h => ?_) rfl rfl
  have hpos := (Controller.legal_pos h).2.2
  obtain ⟨h1, h2, h4, ⟨h5, -, h6⟩, h7⟩ := h
  exact ⟨h1, h2, h4, ⟨h5, Nat.mod_lt _ hpos, h6⟩, h7⟩

theorem Acts.nextSram (s : State) : Acts s (s.upd Controller.nextSram) := sramOff s (s.ctl.sramOff + 1)

theorem Acts.writeGaddr (s : State) (k : Fin 4) (v : Byte) : Acts s (s.upd fun c => c.writeGaddr k v) :=
  upd s (fun ⟨h1, h2, h4, ⟨_, h5, h6⟩, h7⟩ => ⟨h1, h2, h4, ⟨mask_idem _ _, h5, h6⟩, h7⟩) rfl rfl

theorem Acts.writeGcntr (s : State) (v : Half) : Acts s (s.upd fun c => c.writeGcntr v).recompute :=
  (same s (f := fun c => c.writeGcntr v) (by constructor <;> rfl) rfl).trans (recompute _)

theorem State.portRead_answers (s : State) (p : Port) : (s.portRead p).Answers s := by
  cases p with
  | dat =>
    have h := ActsOrHeld.datRead s
    cases hr : s.datRead with
    | none => simp only [State.portRead, hr] at h ⊢; exact h
    | some r => simp only [State.portRead, hr] at h ⊢; exact h
  | istr => exact Acts.recompute s
  | gcntr => exact Acts.recompute s
  | gcntrByte => exact Acts.recompute s
  | sramWin => exact (Acts.orDraw s _).trans (Acts.nextSram _)
  | stDma => exact (Acts.dmaActive s .started).strobe .read
  | spDma => exact (Acts.dmaActive s .stopped).strobe .read
  | cint => exact (Acts.cint s).strobe .read
  | flush => exact (Acts.refl s).strobe .read
  | gStDma => exact ((Acts.dmaActive s .started).trans (Acts.recompute _)).strobe .read
  | gSpDma => exact ((Acts.dmaActive s .stopped).trans (Acts.recompute _)).strobe .read
  | sramOff => exact Acts.unnamedAccess s .read
  | xtWindow => exact trivial
  | sel | cntr | wtc | acr | gaddr | gbank | dawr => exact Acts.refl s

theorem State.portWrite_answers (s : State) (p : Port) (v : Word) : (s.portWrite p v).Answers s := by
  cases p with
  | dat =>
    have h := ActsOrHeld.datWrite s (v.extractLsb' 0 8)
    cases hr : s.datWrite (v.extractLsb' 0 8) with
    | none => simp only [State.portWrite, hr] at h ⊢; exact h
    | some t => simp only [State.portWrite, hr] at h ⊢; exact h
  | cntr => exact (Acts.same s (by constructor <;> rfl) rfl).trans (Acts.recompute _)
  | istr => exact Acts.unnamedAccess s (.write v)
  | gcntr => exact Acts.writeGcntr s _
  | gcntrByte k => exact Acts.writeGcntr s _
  | gaddr k => exact Acts.writeGaddr s k _
  | sramOff => exact Acts.sramOff s _
  | sramWin => exact (Acts.sram s fun h => Memory.put_wf h _ _).trans (Acts.nextSram _)
  | stDma => exact (Acts.dmaActive s .started).strobe (.write v)
  | spDma => exact (Acts.dmaActive s .stopped).strobe (.write v)
  | cint => exact (Acts.cint s).strobe (.write v)
  | flush => exact (Acts.refl s).strobe (.write v)
  | gStDma => exact ((Acts.dmaActive s .started).trans (Acts.recompute _)).strobe (.write v)
  | gSpDma => exact ((Acts.dmaActive s .stopped).trans (Acts.recompute _)).strobe (.write v)
  | xtWindow => exact trivial
  | sel | wtc | acr | dawr | gbank => exact Acts.same s (by constructor <;> rfl) rfl

theorem State.portAccess_answers (s : State) (p : Port) (a : Access) : (s.portAccess p a).Answers s := by
  unfold State.portAccess
  split
  · cases a with
    | read => exact s.portRead_answers p
    | write v => exact s.portWrite_answers p v
  · exact Acts.unnamedAccess s a

theorem State.pageAccess_answers (s : State) (off : Nat) (a : Access) : (s.pageAccess off a).Answers s := by
  unfold State.pageAccess
  split
  · exact Acts.unnamedAccess s a
  · exact s.portAccess_answers _ a

/-! ### The host's access (00_scope.md R11, R12) -/

/-- `r` answers the host at the acting controller of `s`: an operation of that controller, after which the pending
accesses and the data read may be others; a hold at its full queue; or no step. -/
def HostAnswer.Answers (s : State) (r : HostAnswer) : Prop :=
  match r with
  | .held => s.ctl.Full
  | .waits => True
  | .refused _ => True
  | .done u => ∃ t ops d, Acts s t ∧ u = { t with hostOps := ops, hostData := d }

theorem PortAnswer.Answers.finishAccess {s : State} {r : PortAnswer} (h : r.Answers s) (w : Width) (joined : Bool) :
    (finishAccess r w joined).Answers s := by
  cases r with
  | held => exact h
  | refused => exact trivial
  | done t d =>
    rw [finishAccess_done]
    exact ⟨t, t.hostOps, _, h, rfl⟩

theorem State.hostPage_answers (s : State) (slot off : Nat) (w : Width) (a : Access) (joined : Bool) :
    (s.hostPage slot off w a joined).Answers s := by
  unfold State.hostPage
  split
  · exact (s.pageAccess_answers off a).finishAccess w joined
  · exact ⟨s, _, s.hostData, Acts.refl s, rfl⟩

theorem State.teardown_answers (s : State) (slot : Nat) : (s.teardown slot).Answers s := by
  have h := ActsOrHeld.enqueue s (knownMessage_sentinel s.ctl.cfg.shutdown)
  unfold State.teardown
  cases hu : s.enqueue s.ctl.cfg.shutdown with
  | none => rwa [hu] at h
  | some u =>
    rw [hu] at h
    exact ⟨u, _, u.hostData, h, rfl⟩

theorem State.awaitExit_answers (s : State) : s.awaitExit.Answers s := by
  unfold State.awaitExit
  split
  · exact trivial
  · exact ⟨s.upd fun c => { c with down := true }, s.hostOps, s.hostData,
      Acts.same s (by constructor <;> rfl) rfl, rfl⟩

theorem State.hostAccess_answers (s : State) (op : HostOp) : (s.hostAccess op).Answers s := by
  cases op with
  | port _ p a => exact (s.portAccess_answers p a).finishAccess .long false
  | page slot off w a joined => exact s.hostPage_answers slot off w a joined
  | teardown slot => exact s.teardown_answers slot
  | awaitExit _ => exact s.awaitExit_answers

end Sys2Proof.Machine
end

section
/-! The shape of the state (10_state.md R29, R41, R43, R47; 45_dispatch.md R302): reset has it and every step keeps it. -/

namespace Sys2Proof.Machine

/-! ### Construction (45_dispatch.md R320) -/

/-- Every target `attach` leaves is fresh (00_scope.md R7). -/
theorem eq_fresh_of_mem_attach {ids : List (Fin 8)} {t : Target} (h : some t ∈ attach ids) : t = Target.fresh := by
  refine List.foldlRecOn (motive := fun v => some t ∈ v → t = Target.fresh) ids _ (fun hm => ?_)
    (fun v hv i _ hm => ?_) h
  · exact absurd (Vector.eq_of_mem_replicate hm) nofun
  · obtain hm | hm := Vector.mem_or_eq_of_mem_set hm
    · exact hv hm
    · exact Option.some.inj hm

theorem Controller.ok_construct (slot : Nat) {cfg : Params} (hp : paramsLegal cfg = true) (ids : List (Fin 8)) :
    (Controller.construct slot cfg (attach ids)).ok := by
  obtain ⟨⟨⟨⟨⟨hqcap, -⟩, hsram⟩, -⟩, -⟩, -⟩ := by
    simpa only [paramsLegal, Bool.and_eq_true, decide_eq_true_eq] using hp
  refine ⟨hp, ⟨List.length_replicate, hqcap⟩, ⟨Nat.zero_le _, rfl⟩, ⟨BitVec.zero_and, hsram, BitVec.zero_and⟩, .nil,
    .nil, fun i t ht => ?_⟩
  have hm : some t ∈ attach ids := Vector.mem_of_getElem (i := i.val) ht
  rw [eq_fresh_of_mem_attach hm]
  exact .nil

/-! ### The hold (45_dispatch.md R302) -/

/-- A host that nothing holds. -/
theorem State.holdOk_of_free {s : State} (h : s.hostHeld = none) : s.holdOk := by
  intro k hk
  rw [h] at hk
  cases hk

/-- An operation of the acting controller keeps the hold where it leaves that controller's command queue alone, or no
host is held at that queue. -/
theorem Acts.holdOk {s t : State} (h : Acts s t) (hq : s.hostHeld = some s.ctl.slot → t.ctl.cmdq = s.ctl.cmdq)
    (hs : s.holdOk) : t.holdOk := by
  intro k hk
  rw [h.hostHeld] at hk
  obtain ⟨hop, c, hc, rfl, hfull⟩ := hs k hk
  refine ⟨h.hostOps ▸ hop, ?_⟩
  obtain rfl | hc := List.mem_cons.mp hc
  · exact ⟨t.ctl, List.mem_cons_self .., h.slot, by rw [hq hk, h.cfg, hfull]⟩
  · obtain e | e := h.others
    · exact ⟨c, List.mem_cons_of_mem _ (e ▸ hc), rfl, hfull⟩
    · exact ⟨c.foldLatch, List.mem_cons_of_mem _ (e ▸ List.mem_map_of_mem hc), rfl, hfull⟩

/-! ### The shape -/

/-- Any state whose controllers are those of a state with the shape, in whatever order. -/
theorem State.Shape.of_perm {s t : State} (hs : s.Shape) (hmem : t.mem = s.mem) (hp : t.controllers.Perm s.controllers)
    (hops : t.hostOps = s.hostOps) (hheld : t.hostHeld = s.hostHeld) : t.Shape := by
  obtain ⟨hm, hok, hnd, hhold⟩ := hs
  refine ⟨hmem ▸ hm, fun c hc => hok c (hp.mem_iff.mp hc), (hp.map _).nodup_iff.mpr hnd, fun k hk => ?_⟩
  obtain ⟨hop, c, hc, hfull⟩ := hhold k (hheld ▸ hk)
  exact ⟨hops ▸ hop, c, hp.mem_iff.mpr hc, hfull⟩

theorem State.Shape.focus {s s' : State} {slot : Nat} (hs : s.Shape) (h : s.focus slot = some s') : s'.Shape :=
  hs.of_perm (by rw [State.focus_frame h]) (State.focus_controllers_perm h) (State.focus_hostOps h)
    (by rw [State.focus_frame h])

/-- What is pending, and what was read, are no part of the shape where no host is held. -/
theorem State.Shape.withHost {s : State} (hs : s.Shape) (h : s.hostHeld = none) (ops : List HostOp) (d : Word) :
    { s with hostOps := ops, hostData := d }.Shape := by
  obtain ⟨hm, hok, hnd, -⟩ := hs
  exact ⟨hm, hok, hnd, State.holdOk_of_free h⟩

/-- An operation of the acting controller keeps the shape where it keeps the hold. -/
theorem State.Shape.acts {s t : State} (hs : s.Shape) (h : Acts s t)
    (hq : s.hostHeld = some s.ctl.slot → t.ctl.cmdq = s.ctl.cmdq) : t.Shape := by
  obtain ⟨hm, hok, hnd, hhold⟩ := hs
  have hctl : t.ctl.ok := h.ok (hok _ (List.mem_cons_self ..))
  have hothers : ∀ c ∈ s.others, c.ok := fun c hc => hok c (List.mem_cons_of_mem _ hc)
  refine ⟨h.mem hm, List.forall_mem_cons.mpr ⟨hctl, ?_⟩, ?_, h.holdOk hq hhold⟩
  · obtain e | e := h.others
    · exact e ▸ hothers
    · rw [e]
      exact List.forall_mem_map.mpr fun c hc => Controller.ok_foldLatch (hothers c hc)
  · have hslots : t.controllers.map Controller.slot = s.controllers.map Controller.slot := by
      simp only [State.controllers, List.map_cons, h.slot]
      obtain e | e := h.others
      · rw [e]
      · rw [e, List.map_map]; rfl
    exact hslots ▸ hnd

/-! ### The worker's turn (R305) -/

theorem State.fetch_eq_some {s s' : State} {w : Word} (h : s.fetch = some (w, s')) :
    ∃ ws, s.ctl.cmdq = w :: ws ∧ s' = (s.upd fun c => { c with cmdq := ws }).liftHold := by
  unfold State.fetch at h
  split at h
  · split at h
    · cases h
    · cases h; exact ⟨_, ‹_›, rfl⟩
  · cases h

/-- A hold that a removal by the acting controller leaves is another controller's. -/
theorem State.hostHeld_of_liftHold {s : State} {k : Nat} (h : s.liftHold.hostHeld = some k) :
    s.hostHeld = some k ∧ k ≠ s.ctl.slot := by
  refine ⟨?_, fun e => s.liftHold_ne (e ▸ h)⟩
  simp only [State.liftHold] at h
  split at h
  · cases h
  · exact h

/-- A fetch shortens the acting controller's queue, and a host held there is held no longer. -/
theorem State.Shape.fetch {s s' : State} {w : Word} (hs : s.Shape) (h : s.fetch = some (w, s')) : s'.Shape := by
  obtain ⟨ws, hw, rfl⟩ := State.fetch_eq_some h
  obtain ⟨hm, hok, hnd, hhold⟩ := hs
  obtain ⟨hctl, hothers⟩ := List.forall_mem_cons.mp hok
  refine ⟨hm, List.forall_mem_cons.mpr ⟨?_, hothers⟩, hnd, fun k hk => ?_⟩
  · obtain ⟨h1, h2, ⟨hlen, hknown⟩, h4⟩ := hctl
    rw [hw] at hlen hknown
    exact ⟨h1, h2, ⟨(Nat.le_succ _).trans hlen, (Bool.and_eq_true_iff.mp hknown).2⟩, h4⟩
  · obtain ⟨hheld, hk⟩ := State.hostHeld_of_liftHold hk
    obtain ⟨hop, c, hc, rfl, hfull⟩ := hhold k hheld
    obtain rfl | hc := List.mem_cons.mp hc
    · exact absurd rfl hk
    · exact ⟨hop, c, List.mem_cons_of_mem _ hc, rfl, hfull⟩

theorem State.Shape.workerStep {s t : State} (hs : s.Shape) (h : s.workerStep = .next t) : t.Shape := by
  unfold State.workerStep at h
  split at h
  · cases h; exact hs
  · rename_i w s' hf
    have hfree : s'.hostHeld ≠ some s'.ctl.slot := by
      obtain ⟨ws, -, rfl⟩ := State.fetch_eq_some hf
      exact State.liftHold_ne _
    obtain ⟨u, hu, ha⟩ := Acts.exec (decodeMessage s'.ctl.cfg.shutdown w) s'
    rw [hu] at h
    cases h
    exact (hs.fetch hf).acts (ha.trans (Acts.recompute u)) fun hheld => absurd hheld hfree

/-! ### The host's turn (R11) -/

/-- The host is held at its oldest access by a controller whose queue is full (R302). -/
theorem State.Shape.held {s : State} (hs : s.Shape) {op : HostOp} {ops : List HostOp} (ho : s.hostOps = op :: ops)
    {c : Controller} (hslot : c.slot = op.slot) (hc : c ∈ s.controllers) (hfull : c.Full) :
    { s with hostHeld := some op.slot }.Shape := by
  obtain ⟨hm, hok, hnd, -⟩ := hs
  refine ⟨hm, hok, hnd, fun k hk => ?_⟩
  obtain rfl : op.slot = k := Option.some.inj hk
  obtain ⟨-, -, ⟨hlen, -⟩, -⟩ := hok c hc
  exact ⟨⟨op, by simp [ho], rfl⟩, c, hc, hslot, Nat.le_antisymm hlen hfull⟩

theorem State.Shape.hostProceeds {s t : State} (hs : s.Shape) (hh : s.hostHeld = none)
    (h : s.hostProceeds = .next t) : t.Shape := by
  unfold State.hostProceeds at h
  split at h
  · cases h; exact hs
  · rename_i op ops ho
    have hdrop : { s with hostOps := ops }.Shape := hs.withHost hh ops s.hostData
    split at h
    · cases h; exact hdrop
    · rename_i s' hf
      have hs' : s'.Shape := hdrop.focus hf
      have hh' : s'.hostHeld = none := by rw [State.focus_frame hf]; exact hh
      have hmem : s'.ctl ∈ s.controllers := (State.focus_controllers_perm hf).mem_iff.mp (List.mem_cons_self ..)
      have ha := s'.hostAccess_answers op
      split at h
      case isFalse => cases h; exact hdrop
      case isTrue =>
        cases hr : s'.hostAccess op with
        | held =>
          rw [hr] at h ha
          cases h
          exact hs.held ho (State.focus_ctl_slot hf) hmem ha
        | waits =>
          rw [hr] at h
          cases h; exact hs
        | refused r =>
          rw [hr] at h
          cases h
        | done u =>
          rw [hr] at h ha
          cases h
          obtain ⟨v, ops', d, hv, rfl⟩ := ha
          exact (hs'.acts hv fun e => absurd (hh'.symm.trans e) nofun).withHost (hv.hostHeld.trans hh') ops' d

theorem State.Shape.hostTurn {s t : State} (hs : s.Shape) (h : s.hostTurn = .next t) : t.Shape := by
  cases hh : s.hostHeld with
  | none => exact hs.hostProceeds hh (State.hostTurn_free hh ▸ h)
  | some k =>
    rw [State.hostTurn_held hh] at h
    cases h; exact hs

/-! ### The tick and the events from outside (R315, R320, R321) -/

/-- An event at a controller that leaves its command queue alone. -/
theorem State.Shape.atSlot {s : State} (hs : s.Shape) (slot : Nat) {f : State → State} (hf : ∀ u, Acts u (f u))
    (hq : ∀ u, (f u).ctl.cmdq = u.ctl.cmdq) : (s.atSlot slot f).Shape := by
  unfold State.atSlot
  split
  · exact hs
  · rename_i u hu
    split
    · exact hs
    · exact (hs.focus hu).acts (hf u) fun _ => hq u

theorem Acts.boardReset (s : State) : Acts s s.boardReset := by
  have hreset := resetProc s false
  unfold State.boardReset
  generalize s.resetProc false = u at hreset ⊢
  refine (hreset.trans (upd u (fun h => ?_) rfl rfl)).trans (recompute _)
  have hpos := (Controller.legal_pos h).2.2
  obtain ⟨h1, h2, h4, -, h5⟩ := h
  exact ⟨h1, h2, h4, ⟨BitVec.zero_and, hpos, BitVec.zero_and⟩, h5⟩

theorem Target.addReply_data (t : Target) (r : TargetReply) : (t.addReply r).data = t.data := by
  cases r <;> rfl

theorem Controller.ok_addReply {c : Controller} (h : c.ok) (i : Fin 8) (r : TargetReply) : (c.addReply i r).ok := by
  unfold Controller.addReply
  split
  · exact h
  · rename_i t ht
    obtain ⟨-, -, -, -, -, -, hdata⟩ := id h
    have hsel : { c with curTarget := some i }.ok := SameOk.ok (by constructor <;> rfl) h
    have ht : Memory.wf (t.addReply r).data := t.addReply_data r ▸ hdata i t ht
    exact SameOk.ok (c := { c with curTarget := some i }.setTarget (t.addReply r)) (by constructor <;> rfl)
      (ok_setTarget hsel ht)

theorem Controller.addReply_frame (c : Controller) (id : Fin 8) (r : TargetReply) :
    (c.addReply id r).slot = c.slot ∧ (c.addReply id r).cfg = c.cfg ∧ (c.addReply id r).cmdq = c.cmdq := by
  unfold Controller.addReply; split <;> exact ⟨rfl, rfl, rfl⟩

theorem State.Shape.construct {s : State} (hs : s.Shape) (slot : Nat) (cfg : Params) (ids : List (Fin 8)) :
    (s.construct slot cfg ids).Shape := by
  unfold State.construct
  split
  case isTrue => exact hs
  case isFalse hnew =>
    obtain ⟨hfresh, hp⟩ := not_or.mp fun h => hnew (Bool.or_eq_true_iff.mpr h)
    have hp : paramsLegal cfg = true := by simpa using hp
    have hfresh : ∀ c ∈ s.controllers, c.slot ≠ slot := by simpa using hfresh
    obtain ⟨hm, hok, hnd, hhold⟩ := hs
    refine State.Shape.of_perm
      (s := { s with ctl := Controller.construct slot cfg (attach ids), others := s.controllers })
      ⟨hm, List.forall_mem_cons.mpr ⟨Controller.ok_construct slot hp ids, hok⟩,
        List.nodup_cons.mpr ⟨fun h => ?_, hnd⟩, fun k hk => ?_⟩ rfl ?_ rfl rfl
    · obtain ⟨c, hc, hslot⟩ := List.mem_map.mp h
      exact hfresh c hc hslot
    · obtain ⟨hop, c, hc, hfull⟩ := hhold k hk
      exact ⟨hop, c, List.mem_cons_of_mem _ hc, hfull⟩
    · exact List.perm_append_singleton (Controller.construct slot cfg (attach ids)) s.controllers

theorem State.Shape.external {s : State} (hs : s.Shape) (e : External) : (s.external e).Shape := by
  cases e with
  | boardReset slot => exact hs.atSlot slot Acts.boardReset State.boardReset_cmdq
  | construct slot cfg ids => exact hs.construct slot cfg ids
  | autoconfig slot en conf =>
    exact hs.atSlot slot (fun u => (Acts.same u (by constructor <;> rfl) rfl).trans
      (Acts.recompute _)) fun u => rfl
  | xtRequest slot level =>
    exact hs.atSlot slot (fun u => (Acts.same u (by constructor <;> rfl) rfl).trans
      (Acts.recompute _)) fun u => rfl
  | xtDma slot v => exact hs.atSlot slot (fun u => (Acts.dmaActive u v).trans (Acts.recompute _)) fun u => rfl
  | memoryWrite a v => exact hs.acts (Acts.memWrite s a v) fun _ => congrArg _ (s.memWrite_ctl a v)
  | targetReply slot id r =>
    exact hs.atSlot slot (fun u => Acts.upd u (fun h => Controller.ok_addReply h id r) (u.ctl.addReply_frame id r).1
      (u.ctl.addReply_frame id r).2.1) fun u => (u.ctl.addReply_frame id r).2.2

theorem State.Shape.turn {s t : State} (hs : s.Shape) {a : Turn} (h : s.turn a = .next t) : t.Shape := by
  cases a with
  | host => exact hs.hostTurn h
  | worker slot =>
    simp only [State.turn] at h
    split at h
    · cases h; exact hs
    · exact (hs.focus ‹_›).workerStep h
  | tick slot =>
    cases h
    exact hs.atSlot slot Acts.tick State.tick_cmdq
  | external e =>
    cases h
    exact hs.external e

/-- Settles O58, agent by agent: the worker and the tick are operations of one controller (`State.Shape.acts`), the host
is done with its access or held at a full queue (`State.hostAccess_answers`), and an event from outside acts on one
controller or adds one. -/
theorem stepKeepsTheShape : Obligations.StepKeepsTheShape := by
  intro s t hs h
  unfold step at h
  split at h
  case h_1 a ts _ =>
    have hs' : { s with turns := ts }.Shape := hs
    exact hs'.turn h
  case h_2 =>
    have hs' : { s with draws := s.draws + 1 }.Shape := hs
    exact hs'.turn h

theorem paramsLegal_defaultParams (v : Variant) : paramsLegal (defaultParams v) = true := by
  cases v <;> decide

/-- Settles O60: the one controller is constructed with legal parameters, the rest is read off `State.reset`. -/
theorem resetIsSound : Obligations.ResetIsSound := by
  refine ⟨⟨.nil, List.forall_mem_singleton.mpr (Controller.ok_construct 0 (paramsLegal_defaultParams .cbmDmac) [3]),
    List.nodup_singleton _, State.holdOk_of_free rfl⟩, rfl, rfl, rfl, rfl, rfl, rfl, rfl, rfl, rfl, rfl, fun v => ?_⟩
  exact ⟨rfl, rfl, rfl, rfl, rfl, rfl, rfl, rfl, rfl, rfl, rfl, rfl, rfl, rfl, rfl, rfl, rfl⟩

end Sys2Proof.Machine
end

section
/-! The two instruction formats (30_encoding.md R110 to R115): decoding and encoding are inverse to each other. -/

namespace Sys2Proof.Machine

/-! ### Format M: the fields of a message word (R110, R111) -/

theorem tid_messageWord (tid : Byte) (mtype : Half) (cmd : Byte) :
    (messageWord tid mtype cmd).extractLsb' 24 8 = tid := by
  rw [messageWord, BitVec.append_assoc, BitVec.extractLsb'_cast]
  exact BitVec.extractLsb'_append_eq_left

theorem cmd_messageWord (tid : Byte) (mtype : Half) (cmd : Byte) :
    (messageWord tid mtype cmd).extractLsb' 0 8 = cmd :=
  BitVec.extractLsb'_append_eq_right

theorem messageWord_fields (w : Word) :
    messageWord (w.extractLsb' 24 8) (w.extractLsb' 8 16) (w.extractLsb' 0 8) = w := by
  have hhigh : w.extractLsb' 24 8 ++ w.extractLsb' 8 16 = w.extractLsb' 8 24 :=
    BitVec.extractLsb'_append_extractLsb'_eq_extractLsb' (start₁ := 8) rfl
  have hall : w.extractLsb' 8 24 ++ w.extractLsb' 0 8 = w.extractLsb' 0 32 :=
    BitVec.extractLsb'_append_extractLsb'_eq_extractLsb' (start₁ := 0) rfl
  rw [messageWord, hhigh, hall, BitVec.extractLsb'_eq_self]

theorem three_lt_mtype_iff (mtype : Half) :
    3 < mtype.toNat ↔
      mtype ≠ MTYPE_CMD ∧ mtype ≠ MTYPE_CONT_IN ∧ mtype ≠ MTYPE_CONT_OUT ∧ mtype ≠ MTYPE_CONT_IN_MSG := by
  have hcmd : MTYPE_CMD.toNat = 0 := rfl
  have hin : MTYPE_CONT_IN.toNat = 1 := rfl
  have hout : MTYPE_CONT_OUT.toNat = 2 := rfl
  have hinmsg : MTYPE_CONT_IN_MSG.toNat = 3 := rfl
  simp only [ne_eq, ← BitVec.toNat_inj, hcmd, hin, hout, hinmsg]
  omega

/-- Well-formedness of MSG_UNKNOWN, by the tests of the decoder. -/
theorem unknownMessage_iff (sentinel : Word) (tid : Byte) (mtype : Half) (cmd : Byte) :
    unknownMessage sentinel tid mtype cmd = true ↔
      (mtype ≠ MTYPE_CMD ∧ mtype ≠ MTYPE_CONT_IN ∧ mtype ≠ MTYPE_CONT_OUT ∧ mtype ≠ MTYPE_CONT_IN_MSG) ∧
        messageWord tid mtype cmd ≠ sentinel := by
  rw [← three_lt_mtype_iff, unknownMessage, Bool.and_eq_true, decide_eq_true_iff, decide_eq_true_iff, messageWord]

/-- A legal sentinel is of none of R111's types (92_eei_decisions.md D29). -/
theorem messageWord_ne_sentinel {sentinel : Word} (hs : sentinelLegal sentinel = true) {mtype : Half}
    (hm : mtype.toNat ≤ 3) (tid cmd : Byte) : messageWord tid mtype cmd ≠ sentinel := by
  rintro rfl
  have hlegal : 3 < ((messageWord tid mtype cmd).extractLsb' 8 16).toNat := of_decide_eq_true hs
  rw [mtype_messageWord] at hlegal
  exact absurd hm (Nat.not_le.mpr hlegal)

/-- The sentinel set aside, the type alone chooses the row (R111). -/
theorem decodeMessage_messageWord {sentinel : Word} {tid : Byte} {mtype : Half} {cmd : Byte}
    (hne : messageWord tid mtype cmd ≠ sentinel) :
    decodeMessage sentinel (messageWord tid mtype cmd) =
      if mtype = MTYPE_CMD then .msgCmd tid cmd
      else if mtype = MTYPE_CONT_IN then .msgContIn tid cmd
      else if mtype = MTYPE_CONT_OUT then .msgContOut tid cmd
      else if mtype = MTYPE_CONT_IN_MSG then .msgContInMsg tid cmd
      else .msgUnknown tid mtype cmd := by
  simp only [decodeMessage, if_neg hne, tid_messageWord, mtype_messageWord, cmd_messageWord]

theorem decodeMessage_sentinel (sentinel : Word) : decodeMessage sentinel sentinel = .msgShutdown := if_pos rfl

theorem decodeMessage_of_unknownMessage {sentinel : Word} {tid : Byte} {mtype : Half} {cmd : Byte}
    (h : unknownMessage sentinel tid mtype cmd = true) :
    decodeMessage sentinel (messageWord tid mtype cmd) = .msgUnknown tid mtype cmd := by
  obtain ⟨⟨hcmd, hin, hout, hinmsg⟩, hne⟩ := (unknownMessage_iff ..).mp h
  rw [decodeMessage_messageWord hne, if_neg hcmd, if_neg hin, if_neg hout, if_neg hinmsg]

/-! ### Format C: the fields of a command byte (R113 to R115) -/

/-- `SBT` stands above the seven bits of `op`. -/
theorem commandByte_eq_cons (sbt : Bool) (op : BitVec 7) : commandByte sbt op = BitVec.cons sbt op := by
  have hlow : op.setWidth 8 <<< OP_LOW = op.setWidth 8 := BitVec.shiftLeft_zero _
  calc commandByte sbt op
      = ((BitVec.ofBool sbt).setWidth 8 <<< 7 ||| op.setWidth 8 <<< OP_LOW) := rfl
    _ = (BitVec.ofBool sbt ++ op).setWidth 8 := by rw [hlow, BitVec.setWidth_append_eq_shiftLeft_setWidth_or]
    _ = BitVec.cons sbt op := BitVec.setWidth_eq _

theorem sbt_commandByte (sbt : Bool) (op : BitVec 7) : (commandByte sbt op).getLsbD SBT_BIT = sbt := by
  rw [commandByte_eq_cons]
  exact (BitVec.msb_eq_getLsbD_last _).symm.trans BitVec.msb_cons

theorem op_commandByte (sbt : Bool) (op : BitVec 7) : (commandByte sbt op).extractLsb' OP_LOW 7 = op := by
  rw [commandByte_eq_cons]
  exact BitVec.extractLsb'_append_eq_right

theorem commandByte_fields (b : Byte) : commandByte (b.getLsbD SBT_BIT) (b.extractLsb' OP_LOW 7) = b := by
  have hsbt : b.getLsbD SBT_BIT = b.msb := (BitVec.msb_eq_getLsbD_last b).symm
  have hop : b.extractLsb' OP_LOW 7 = b.setWidth 7 := (BitVec.setWidth_eq_extractLsb' (by decide)).symm
  rw [commandByte_eq_cons, hsbt, hop, BitVec.cons_msb_setWidth]

/-- Well-formedness of INVALID, by the tests of the decoder. -/
theorem unnamedOp_iff (op : BitVec 7) :
    unnamedOp op = true ↔ op ≠ OP_RESET ∧ op ≠ OP_ABORT ∧ op ≠ OP_NEGATE_ACK ∧ op ≠ OP_SEL_ATN ∧ op ≠ OP_SEL ∧
      op ≠ OP_SEL_ATN_XFER ∧ op ≠ OP_SEL_XFER ∧ op ≠ OP_TRANS_INFO := by
  simp [unnamedOp, namedOps]

theorem decodeCommand_of_unnamedOp (sbt : Bool) {op : BitVec 7} (h : unnamedOp op = true) :
    decodeCommand (commandByte sbt op) = .invalid sbt op := by
  obtain ⟨hreset, habort, hack, hselAtn, hsel, hselAtnXfer, hselXfer, hinfo⟩ := (unnamedOp_iff op).mp h
  simp only [decodeCommand, sbt_commandByte, op_commandByte, hreset, habort, hack, hselAtn, hsel, hselAtnXfer,
    hselXfer, hinfo, if_false]

/-! ### Decoding what the encoder writes -/

/-- The named codes are two command bytes each; the message rows turn on the sentinel's type being above 3. -/
theorem decode_encode {sentinel : Word} (hs : sentinelLegal sentinel = true) {i : Instr} (hi : i.wf sentinel = true) :
    decode sentinel (encode sentinel i) = i := by
  cases i with
  | msgShutdown => exact decodeMessage_sentinel sentinel
  | msgCmd tid cmd => exact decodeMessage_messageWord (messageWord_ne_sentinel hs (by decide) tid cmd)
  | msgContIn tid cmd => exact decodeMessage_messageWord (messageWord_ne_sentinel hs (by decide) tid cmd)
  | msgContOut tid cmd => exact decodeMessage_messageWord (messageWord_ne_sentinel hs (by decide) tid cmd)
  | msgContInMsg tid cmd => exact decodeMessage_messageWord (messageWord_ne_sentinel hs (by decide) tid cmd)
  | msgUnknown tid mtype cmd => exact decodeMessage_of_unknownMessage hi
  | invalid sbt op => exact decodeCommand_of_unnamedOp sbt hi
  | reset sbt | abort sbt | negateAck sbt | selAtn sbt | sel sbt | selAtnXfer sbt | selXfer sbt | transInfo sbt =>
    cases sbt <;> rfl

theorem decodeTableWord_message (w : Word) : decodeTableWord 32 w.toNat = some (decode SHUTDOWN (.message w)) := by
  simp [decodeTableWord, decodeBits, w.isLt]

theorem decodeTableWord_command (b : Byte) : decodeTableWord 8 b.toNat = some (decode SHUTDOWN (.command b)) := by
  simp [decodeTableWord, decodeBits, b.isLt]

/-- The opcode table's numbering loses nothing of a code (R110, R113). -/
theorem decodeTableWord_encodeTableWord (i : Instr) :
    decodeTableWord (encodeTableWord i).1 (encodeTableWord i).2 = some (decode SHUTDOWN (encode SHUTDOWN i)) := by
  unfold encodeTableWord
  cases encode SHUTDOWN i with
  | message w => exact decodeTableWord_message w
  | command b => exact decodeTableWord_command b

/-- Settles O1, row by row of the table; its default sentinel is a legal one. -/
theorem decodeInvertsEncode : Obligations.DecodeInvertsEncode :=
  ⟨fun _ _ hs hi => decode_encode hs hi, fun i hi =>
    (decodeTableWord_encodeTableWord i).trans (congrArg some (decode_encode (by decide) hi))⟩

/-! ### Encoding what a code decodes to -/

theorem wf_decodeMessage (sentinel w : Word) : (decodeMessage sentinel w).wf sentinel = true := by
  unfold decodeMessage
  dsimp only
  split_ifs with hs hcmd hin hout hinmsg
  case neg => exact (unknownMessage_iff ..).mpr ⟨⟨hcmd, hin, hout, hinmsg⟩, by rwa [messageWord_fields]⟩
  all_goals rfl

/-- The type a row's encoding holds is the one its test has found. -/
theorem encode_decodeMessage (sentinel w : Word) : encode sentinel (decodeMessage sentinel w) = .message w := by
  have hw := messageWord_fields w
  unfold decodeMessage
  dsimp only
  split_ifs with hs hm hm hm hm
  · exact congrArg Code.message hs.symm
  case neg => exact congrArg Code.message hw
  all_goals exact congrArg Code.message (by rwa [hm] at hw)

theorem wf_decodeCommand (sentinel : Word) (b : Byte) : (decodeCommand b).wf sentinel = true := by
  unfold decodeCommand
  dsimp only
  split_ifs with hreset habort hack hselAtn hsel hselAtnXfer hselXfer hinfo
  case neg =>
    exact (unnamedOp_iff _).mpr ⟨hreset, habort, hack, hselAtn, hsel, hselAtnXfer, hselXfer, hinfo⟩
  all_goals rfl

/-- The code a row's encoding holds is the one its test has found. -/
theorem encode_decodeCommand (sentinel : Word) (b : Byte) : encode sentinel (decodeCommand b) = .command b := by
  have hb := commandByte_fields b
  unfold decodeCommand
  dsimp only
  split_ifs with hop hop hop hop hop hop hop hop
  case neg => exact congrArg Code.command hb
  all_goals exact congrArg Code.command (by rwa [hop] at hb)

/-- Settles O2, format by format. -/
theorem encodeInvertsDecode : Obligations.EncodeInvertsDecode := by
  intro sentinel k
  cases k with
  | message w => exact ⟨wf_decodeMessage sentinel w, encode_decodeMessage sentinel w⟩
  | command b => exact ⟨wf_decodeCommand sentinel b, encode_decodeCommand sentinel b⟩

/-- Settles O3: each word is a concrete one, and the decoder runs on it. -/
theorem wordsOfTheSpecDecode : Obligations.WordsOfTheSpecDecode :=
  ⟨rfl, rfl, rfl, rfl, rfl, rfl, rfl, rfl, rfl, rfl, rfl, rfl, rfl⟩

end Sys2Proof.Machine
end

section
/-! The register pointer, and what a read and a write of each register come to (40_register_access.md R140 to R154). -/

namespace Sys2Proof.Machine

/-! ### The pointer (R140, R141) -/

/-- The registers on which an access leaves the pointer (R141). -/
abbrev pointerStays (p : RegNum) (afterWrite : Bool) : Prop :=
  p = AUXILIARY_STATUS ∨ p = DATA ∨ p = COMMAND ∨ (afterWrite = true ∧ p = SCSI_STATUS)

theorem Controller.advancePointer_of_stays {c : Controller} {afterWrite : Bool} (h : pointerStays c.sasr afterWrite) :
    c.advancePointer afterWrite = c := by
  obtain h | h | h | ⟨rfl, h⟩ := h <;> simp [Controller.advancePointer, h]

theorem Controller.advancePointer_of_moves {c : Controller} {afterWrite : Bool} (h : ¬pointerStays c.sasr afterWrite) :
    c.advancePointer afterWrite = { c with sasr := c.sasr + 1 } := by
  simp only [pointerStays, not_or] at h
  obtain ⟨haux, hdata, hcommand, hstatus⟩ := h
  simp [Controller.advancePointer, haux, hdata, hcommand, hstatus]

/-- The next register number, wrapping (R141). -/
theorem ofNat_toNat_succ (p : RegNum) : BitVec.ofNat 5 ((p.toNat + 1) % 32) = p + 1 :=
  BitVec.eq_of_toNat_eq (by simp [BitVec.toNat_add])

/-! ### DAT is the access of the register the pointer names (R143, R145) -/

section
variable {s u : State} {b v : Byte}

theorem State.datRead_of_stays (h : s.readRegister s.ctl.sasr = some (u, b)) (hp : pointerStays u.ctl.sasr false) :
    s.datRead = some (u, b) := by
  have hu : (u.upd fun c => c.advancePointer false) = u := State.upd_self (Controller.advancePointer_of_stays hp)
  simp [State.datRead, h, hu]

theorem State.datRead_of_moves (h : s.readRegister s.ctl.sasr = some (u, b)) (hp : ¬pointerStays u.ctl.sasr false) :
    s.datRead = some ({ u with ctl := { u.ctl with sasr := u.ctl.sasr + 1 } }, b) := by
  simp [State.datRead, h, State.upd, Controller.advancePointer_of_moves hp]

theorem State.datWrite_of_stays (h : s.writeRegister s.ctl.sasr v = some u) (hp : pointerStays u.ctl.sasr true) :
    s.datWrite v = some u := by
  have hu : (u.upd fun c => c.advancePointer true) = u := State.upd_self (Controller.advancePointer_of_stays hp)
  simp [State.datWrite, h, hu]

theorem State.datWrite_of_moves (h : s.writeRegister s.ctl.sasr v = some u) (hp : ¬pointerStays u.ctl.sasr true) :
    s.datWrite v = some { u with ctl := { u.ctl with sasr := u.ctl.sasr + 1 } } := by
  simp [State.datWrite, h, State.upd, Controller.advancePointer_of_moves hp]

end

/-! ### The registers, one by one -/

theorem State.readRegister_auxiliaryStatus (s : State) :
    s.readRegister AUXILIARY_STATUS = some (s, s.ctl.auxStatus) := rfl

theorem State.readRegister_scsiStatus (s : State) : s.readRegister SCSI_STATUS = some s.acknowledge := rfl

theorem State.readRegister_data (s : State) : s.readRegister DATA = s.readData := rfl

theorem State.readRegister_plain (s : State) {p : RegNum} (haux : p ≠ AUXILIARY_STATUS) (hstatus : p ≠ SCSI_STATUS)
    (hdata : p ≠ DATA) : s.readRegister p = some (s, s.ctl.reg p) := by
  rw [State.readRegister, if_neg haux, if_neg hstatus, if_neg hdata]

theorem State.writeRegister_protected (s : State) {p : RegNum} (h : p = SCSI_STATUS ∨ p = AUXILIARY_STATUS) (v : Byte) :
    s.writeRegister p v = some s := if_pos h

theorem State.writeRegister_ownId (s : State) (v : Byte) :
    s.writeRegister OWN_ID v = some (s.upd fun c => c.setReg OWN_ID (v &&& ownIdMask c.cfg.chipRev)) := rfl

theorem State.writeRegister_command (s : State) (v : Byte) : s.writeRegister COMMAND v = s.writeCommand v := rfl

theorem State.writeRegister_data (s : State) (v : Byte) : s.writeRegister DATA v = s.writeData v := rfl

theorem State.writeRegister_plain (s : State) {p : RegNum} (hp : ¬(p = SCSI_STATUS ∨ p = AUXILIARY_STATUS))
    (hown : p ≠ OWN_ID) (hcommand : p ≠ COMMAND) (hdata : p ≠ DATA) (v : Byte) :
    s.writeRegister p v = some (s.upd fun c => c.setReg p v) := by
  rw [State.writeRegister, if_neg hp, if_neg hown, if_neg hcommand, if_neg hdata]

/-- Settles O10: SEL by computation, the pointer by R141's cases, DAT by what the register access answers. -/
theorem pointerIsSetAndAdvances : Obligations.PointerIsSetAndAdvances := by
  refine ⟨fun s v => ?sel, fun c afterWrite => ?pointer, fun s v => ?dat⟩
  case sel =>
    have low : (v.extractLsb' 0 8).extractLsb' 0 5 = v.extractLsb' 0 5 :=
      BitVec.extractLsb'_extractLsb'_of_le (by decide)
    exact congrArg (fun p => PortAnswer.done { s with ctl := { s.ctl with sasr := p } } none) low
  case pointer =>
    rw [ofNat_toNat_succ]
    change c.advancePointer afterWrite = { c with sasr := if pointerStays c.sasr afterWrite then c.sasr else c.sasr + 1 }
    split
    case isTrue h => exact Controller.advancePointer_of_stays h
    case isFalse h => exact Controller.advancePointer_of_moves h
  case dat =>
    refine ⟨fun h => ?_, fun u b h => ?_, fun h => ?_, fun u h => ?_⟩ <;>
      simp [State.portAccess, hasPort, State.portRead, State.portWrite, answerByte, h]

/-! ### The auxiliary status (R150) -/

theorem Controller.auxStatus_bits (c : Controller) :
    c.auxStatus.getLsbD 7 = c.auxInt ∧ c.auxStatus.getLsbD 5 = (c.busy || decide (c.dataAvail = .dma)) ∧
    c.auxStatus.getLsbD 0 = decide (c.dataAvail ≠ .closed) ∧ c.auxStatus &&& 0x5E = 0 := by
  unfold Controller.auxStatus
  cases c.dataAvail <;> cases c.busy <;> cases c.auxInt <;> decide

/-- Settles O11: the byte is a function of the flags, and the pointer stands on 0x1F. -/
theorem auxiliaryStatusIsReadWithoutEffect : Obligations.AuxiliaryStatusIsReadWithoutEffect := by
  refine fun s => ⟨s.ctl.auxStatus, rfl, fun h => ?_, s.ctl.auxStatus_bits⟩
  have hp : s.ctl.sasr = AUXILIARY_STATUS := h
  exact State.datRead_of_stays (hp ▸ s.readRegister_auxiliaryStatus) (.inl hp)

/-! ### The status latch (R151) -/

/-- The pending flag and the variant's folded bit as the read of SCSI_STATUS leaves them. -/
def Controller.acknowledged (c : Controller) : Controller :=
  { c with
    auxInt := false
    istr := if c.cfg.variant = .cbmDmac ∨ c.cfg.variant = .cbmSdmac then c.istr &&& 0xBF else c.istr
    gcntr := if c.cfg.variant = .gvpS2 then c.gcntr &&& 0xFFFD else c.gcntr }

theorem State.acknowledge_eq (s : State) :
    s.acknowledge = ((s.upd Controller.acknowledged).recompute, s.ctl.reg SCSI_STATUS) := by
  refine Prod.ext (congrArg State.recompute (State.upd_congr ?_)) rfl
  cases hv : s.ctl.cfg.variant <;> simp [Controller.acknowledged, hv] <;> rfl

/-- Settles O12: the read is `acknowledge`, which leaves the pointer on 0x17, whence it moves on. -/
theorem statusReadAcknowledges : Obligations.StatusReadAcknowledges := by
  intro s h
  have hp : s.ctl.sasr = SCSI_STATUS := h
  have hu : (s.upd Controller.acknowledged).recompute.ctl.sasr = SCSI_STATUS := hp
  have hread := hp ▸ s.readRegister_scsiStatus
  rw [State.acknowledge_eq] at hread
  rw [State.datRead_of_moves hread (hu ▸ by decide), hu]
  rfl

/-! ### The registers the host cannot write freely (R146, R147) -/

theorem ownIdMask_eq (r : ChipRev) :
    ownIdMask r = match r with
      | .wd33c93 => 0xD7
      | .wd33c93a => 0xDF
      | .wd33c93b => 0xFF := by
  cases r <;> rfl

/-- Settles O13: the first two registers by the pointer's standing, OWN_ID by its mask. -/
theorem protectedRegisterWrites : Obligations.ProtectedRegisterWrites := by
  refine fun s v => ⟨fun h => ?ignored, fun h => ?ownId⟩
  case ignored =>
    exact State.datWrite_of_stays (s.writeRegister_protected h v) (h.elim (fun h => .inr (.inr (.inr ⟨rfl, h⟩))) .inl)
  case ownId =>
    have hp : s.ctl.sasr = OWN_ID := h
    have hmoves : ¬pointerStays OWN_ID true := by unfold pointerStays; decide
    rw [State.datWrite_of_moves (hp ▸ s.writeRegister_ownId v) (hp ▸ hmoves)]
    simp only [State.upd, Controller.setReg_sasr, hp, ownIdMask_eq]
    rfl

/-- Settles O14: the named registers excluded, both accesses are the register file's. -/
theorem plainRegistersReadAndWrite : Obligations.PlainRegistersReadAndWrite := by
  refine fun s v => ⟨fun h => ?write, fun h => ?read⟩
  case write =>
    simp only [List.mem_cons, List.not_mem_nil, or_false, not_or] at h
    obtain ⟨hown, hstatus, hcommand, hdata, haux⟩ := h
    exact State.datWrite_of_moves
      (s.writeRegister_plain (not_or.mpr ⟨hstatus, haux⟩) hown hcommand hdata v)
      (not_or.mpr ⟨haux, not_or.mpr ⟨hdata, not_or.mpr ⟨hcommand, fun hw => hstatus hw.2⟩⟩⟩)
  case read =>
    simp only [List.mem_cons, List.not_mem_nil, or_false, not_or] at h
    obtain ⟨hstatus, hdata, haux⟩ := h
    have hread := s.readRegister_plain haux hstatus hdata
    by_cases hcommand : s.ctl.sasr = 0x18
    · rw [State.datRead_of_stays hread (.inr (.inr (.inl hcommand))), if_pos hcommand, ← hcommand]
      rfl
    · rw [State.datRead_of_moves hread
        (not_or.mpr ⟨haux, not_or.mpr ⟨hdata, not_or.mpr ⟨hcommand, fun hw => hstatus hw.2⟩⟩⟩), if_neg hcommand]
      rfl

/-! ### COMMAND (R148) -/

theorem State.enqueue_of_room {s : State} (h : s.ctl.cmdq.length < s.ctl.cfg.cmdqCap) (w : Word) :
    s.enqueue w = some (s.upd fun c => { c with cmdq := c.cmdq ++ [w] }) := if_pos h

theorem Controller.destTid_eq (c : Controller) :
    c.destTid = if c.targetAt c.destId = none then 0 else BitVec.ofNat 8 c.destId.val := by
  unfold Controller.destTid
  cases c.targetAt c.destId <;> rfl

/-- Settles O15: with room in the queue the write is one enqueue, and the pointer stands on 0x18. -/
theorem commandWriteEnqueues : Obligations.CommandWriteEnqueues := by
  intro s v h hroom
  have hp : s.ctl.sasr = COMMAND := h
  have hwrite : s.writeRegister s.ctl.sasr v = some (s.upd fun c =>
      { c.setReg COMMAND v with busy := true, cmdq := c.cmdq ++ [messageWord c.destTid MTYPE_CMD v] }) := by
    rw [hp, s.writeRegister_command]
    exact State.enqueue_of_room (s := s.upd fun c => { c.setReg COMMAND v with busy := true }) hroom _
  rw [State.datWrite_of_stays hwrite (.inr (.inr (.inl hp)))]
  simp only [State.upd, Controller.destTid_eq]
  rfl

end Sys2Proof.Machine
end

section
/-! The DATA register while a transfer is open (40_register_access.md R152, R153; 20_memory.md R90). -/

namespace Sys2Proof.Machine

/-! ### The controller once a byte has moved -/

/-- Byte `b` has moved at DATA and left the current target as `t`: the counter, the target, the mirror, the register. -/
def Controller.byteMoved (c : Controller) (t : Target) (b : Byte) : Controller :=
  (((c.setTc (if c.tc = 0 then 0 else c.tc - 1)).setTarget t).mirror b).setReg DATA b

namespace Controller

variable (c : Controller) (t : Target) (b : Byte)

theorem decTc_fst : c.decTc.1 = c.setTc (if c.tc = 0 then 0 else c.tc - 1) := by
  unfold decTc
  split
  case isTrue h => exact (h ▸ c.setTc_tc_self).symm
  case isFalse => rfl

theorem setTc_setReg_data (v : Count) : (c.setReg DATA b).setTc v = (c.setTc v).setReg DATA b := by
  simp only [setTc]
  rw [setReg_comm _ (j := TC_MSB) (by decide), setReg_comm _ (j := TC_MID) (by decide),
    setReg_comm _ (j := TC_LSB) (by decide)]

theorem tc_setReg_data : (c.setReg DATA b).tc = c.tc := by
  simp only [tc, reg_setReg_ne c (show DATA ≠ TC_MSB by decide), reg_setReg_ne c (show DATA ≠ TC_MID by decide),
    reg_setReg_ne c (show DATA ≠ TC_LSB by decide)]

theorem setTc_setTarget (v : Count) : (c.setTarget t).setTc v = (c.setTc v).setTarget t := by
  unfold setTarget
  rw [setTc_curTarget]
  cases c.curTarget <;> rfl

theorem setTarget_mirror_setReg (i : RegNum) :
    ((c.mirror b).setReg i b).setTarget t = ((c.setTarget t).mirror b).setReg i b := by
  unfold setTarget
  rw [setReg_curTarget, mirror_curTarget]
  cases c.curTarget <;> rfl

/-- R152's order of the four updates. -/
theorem byteMoved_eq_read : (((c.setTarget t).setReg DATA b).mirror b).decTc.1 = c.byteMoved t b := by
  rw [decTc_fst, mirror_tc, tc_setReg_data, setTarget_tc, byteMoved, ← setTc_setTarget]
  exact congrArg (mirror · b) (setTc_setReg_data ..)

/-- R153's order of the four updates. -/
theorem byteMoved_eq_write : (((c.setReg DATA b).mirror b).decTc.1).setTarget t = c.byteMoved t b := by
  rw [decTc_fst, mirror_tc, tc_setReg_data, byteMoved, ← setTarget_mirror_setReg]
  exact congrArg (fun d => (mirror d b).setTarget t) (setTc_setReg_data ..)

/-- The record of the four updates. -/
theorem byteMoved_eq {i : Fin 8} (h : c.curTarget = some i) :
    c.byteMoved t b = { c.setTc (if c.tc = 0 then 0 else c.tc - 1) with
      targets := c.targets.set i.val (some t)
      scratch := if c.scratchOff < c.cfg.scratchSize then Memory.put c.scratch c.scratchOff b else c.scratch
      scratchOff := c.scratchOff + 1
      regs := (c.setTc (if c.tc = 0 then 0 else c.tc - 1)).regs.set 0x19 b } := by
  rw [byteMoved, setTarget_eq (c.setTc _) (i := i) h]
  rfl

@[simp] theorem byteMoved_sasr : (c.byteMoved t b).sasr = c.sasr := by simp [byteMoved]
@[simp] theorem byteMoved_cfg : (c.byteMoved t b).cfg = c.cfg := by simp [byteMoved]
@[simp] theorem byteMoved_cmdq : (c.byteMoved t b).cmdq = c.cmdq := by simp [byteMoved]
@[simp] theorem byteMoved_curTarget : (c.byteMoved t b).curTarget = c.curTarget := by simp [byteMoved]
@[simp] theorem byteMoved_curTid : (c.byteMoved t b).curTid = c.curTid := by simp [curTid]

@[simp] theorem byteMoved_phase : (c.byteMoved t b).phase = c.phase := by
  rw [byteMoved, phase_setReg_ne _ (by decide), mirror_phase, setTarget_phase, phase_setTc]

@[simp] theorem byteMoved_tc : (c.byteMoved t b).tc = if c.tc = 0 then 0 else c.tc - 1 := by
  rw [byteMoved, tc_setReg_data, mirror_tc, setTarget_tc, tc_setTc]

theorem byteMoved_tc_toNat : (c.byteMoved t b).tc.toNat = c.tc.toNat - 1 := by
  rw [byteMoved_tc]
  split
  case isTrue h => simp [h]
  case isFalse h =>
    have hpos : c.tc.toNat ≠ 0 := fun h0 => h (BitVec.eq_of_toNat_eq h0)
    exact BitVec.toNat_sub_of_le (BitVec.le_def.mpr (Nat.one_le_iff_ne_zero.mpr hpos : (1 : Count).toNat ≤ c.tc.toNat))

theorem byteMoved_tc_eq_zero_iff : (c.byteMoved t b).tc = 0 ↔ c.tc.toNat ≤ 1 := by
  rw [← BitVec.toNat_inj, byteMoved_tc_toNat]
  simp [Nat.sub_eq_zero_iff_le]

end Controller

/-! ### What a target does with a byte (20_memory.md R90) -/

theorem Target.send_fst (t : Target) (v : Byte) :
    (t.send v).1 = if t.direction = .command then { t with cmd := t.cmd.setIfInBounds t.offset v, offset := t.offset + 1 }
      else { t with data := Memory.put t.data t.offset v, offset := t.offset + 1 } := by
  by_cases h : t.direction = .command <;> simp [Target.send, h]

theorem Target.send_snd (t : Target) (v : Byte) : (t.send v).2 = decide (t.dataLength ≤ t.offset + 1) := by
  by_cases h : t.direction = .command <;> simp [Target.send, h]

/-! ### The last byte of a transfer, and the ones before it (R152, R153) -/

/-- The byte about to move is the transfer's last. -/
abbrev Controller.onLastByte (c : Controller) (t : Target) : Prop := t.dataLength ≤ t.offset + 1 ∨ c.tc.toNat ≤ 1

/-- A byte has moved that was not the last. -/
def Controller.transferGoesOn (c : Controller) (t : Target) (b : Byte) : Controller :=
  { c.byteMoved t b with dataAvail := .pio }

/-- The last byte has moved; a message of type `mtype` tells the worker. -/
def Controller.transferCloses (c : Controller) (t : Target) (b : Byte) (mtype : Half) : Controller :=
  { c.byteMoved t b with dataAvail := .closed, cmdq := c.cmdq ++ [messageWord c.curTid mtype 0] }

section
variable {s : State} {t u : Target} {b : Byte} {mtype : Half}

theorem State.pioClose_goesOn (h : ¬s.ctl.onLastByte t) :
    (s.upd fun c => c.byteMoved u b).pioClose (decide (t.dataLength ≤ t.offset + 1)) mtype =
      some (s.upd fun c => c.transferGoesOn u b) := by
  refine if_neg ?_
  rw [decide_eq_true_iff, State.upd_ctl, Controller.byteMoved_tc_eq_zero_iff]
  exact h

theorem State.pioClose_closes (h : s.ctl.onLastByte t) (hroom : s.ctl.cmdq.length < s.ctl.cfg.cmdqCap) :
    (s.upd fun c => c.byteMoved u b).pioClose (decide (t.dataLength ≤ t.offset + 1)) mtype =
      some (s.upd fun c => c.transferCloses u b mtype) := by
  have hlast : decide (t.dataLength ≤ t.offset + 1) = true ∨ (s.upd fun c => c.byteMoved u b).ctl.tc = 0 := by
    rw [decide_eq_true_iff, State.upd_ctl, Controller.byteMoved_tc_eq_zero_iff]
    exact h
  rw [State.pioClose, if_pos hlast, State.enqueue_of_room (by simpa using hroom)]
  simp [Controller.transferCloses, State.upd]

end

/-! ### A transfer open at DATA -/

/-- The pointer names DATA, target `t` is attached at the current ID `i`, and a transfer is open. -/
structure State.OpenAt (s : State) (i : Fin 8) (t : Target) : Prop where
  sasr : s.ctl.sasr = DATA
  curTarget : s.ctl.curTarget = some i
  attached : s.ctl.targets[i.val] = some t
  dataAvail : s.ctl.dataAvail ≠ .closed

namespace State.OpenAt

variable {s : State} {i : Fin 8} {t : Target}

theorem target (h : s.OpenAt i t) : s.target = some t := by
  simp [State.target, Controller.target, Controller.targetAt, h.curTarget, h.attached]

theorem curTid (h : s.OpenAt i t) : s.ctl.curTid = BitVec.ofNat 8 i.val := by
  simp [Controller.curTid, h.curTarget]

/-- After a byte that is not the last the transfer is open still. -/
theorem goesOn (h : s.OpenAt i t) (u : Target) (b : Byte) : (s.upd fun c => c.transferGoesOn u b).OpenAt i u where
  sasr := (s.ctl.byteMoved_sasr u b).trans h.sasr
  curTarget := (s.ctl.byteMoved_curTarget u b).trans h.curTarget
  attached := by simp [Controller.transferGoesOn, Controller.byteMoved_eq _ _ _ h.curTarget]
  dataAvail := by simp [Controller.transferGoesOn]

/-! ### A write of DATA (R153) -/

theorem writeData (h : s.OpenAt i t) (v : Byte) :
    s.writeData v = (s.upd fun c => c.byteMoved (t.send v).1 v).pioClose
      (decide (t.dataLength ≤ t.offset + 1)) MTYPE_CONT_OUT := by
  have ht : (s.upd fun c => c.setReg DATA v).target = some t := h.target
  have ho : (s.upd fun c => c.setReg DATA v).ctl.dataAvail ≠ .closed := h.dataAvail
  simp only [State.writeData, ht, if_neg ho, State.upd_upd, Controller.byteMoved_eq_write, Target.send_snd]

theorem datWrite_goesOn (h : s.OpenAt i t) (hlast : ¬s.ctl.onLastByte t) (v : Byte) :
    s.datWrite v = some (s.upd fun c => c.transferGoesOn (t.send v).1 v) := by
  have hwrite : s.writeRegister s.ctl.sasr v = some (s.upd fun c => c.transferGoesOn (t.send v).1 v) := by
    rw [h.sasr, State.writeRegister_data, h.writeData]
    exact State.pioClose_goesOn hlast
  exact State.datWrite_of_stays hwrite (.inr (.inl (h.goesOn _ v).sasr))

theorem datWrite_closes (h : s.OpenAt i t) (hlast : s.ctl.onLastByte t) (hroom : s.ctl.cmdq.length < s.ctl.cfg.cmdqCap)
    (v : Byte) : s.datWrite v = some (s.upd fun c => c.transferCloses (t.send v).1 v MTYPE_CONT_OUT) := by
  have hwrite : s.writeRegister s.ctl.sasr v =
      some (s.upd fun c => c.transferCloses (t.send v).1 v MTYPE_CONT_OUT) := by
    rw [h.sasr, State.writeRegister_data, h.writeData]
    exact State.pioClose_closes hlast hroom
  exact State.datWrite_of_stays hwrite (.inr (.inl ((s.ctl.byteMoved_sasr _ v).trans h.sasr)))

end State.OpenAt

/-- Settles O18: the byte goes on or closes the transfer, and each outcome is written out as a record. -/
theorem dataWriteMovesOneByte : Obligations.DataWriteMovesOneByte := by
  intro s i t v hp hi ht ho
  have h : s.OpenAt i t := ⟨hp, hi, ht, ho⟩
  refine ⟨fun hlast => ?goesOn, fun hlast hroom => ?closes⟩
  case goesOn =>
    rw [h.datWrite_goesOn hlast, State.upd, Controller.transferGoesOn, Controller.byteMoved_eq _ _ _ hi, Target.send_fst]
  case closes =>
    rw [h.datWrite_closes hlast hroom, State.upd, Controller.transferCloses, Controller.byteMoved_eq _ _ _ hi,
      Target.send_fst, h.curTid]
    rfl

/-! ### A read of DATA (R152) -/

/-- What `recv` gives of `t` in phase `p` (R90, log 9): byte `b`, with the free-value counter at `n` and the messages `ms`
left. -/
def State.Gives (s : State) (t : Target) (p b : Byte) (n : Nat) (ms : List Byte) : Prop :=
  (p = 0x46 ∨ p = 0x47 → b = t.status ∧ n = s.draws ∧ ms = t.messageReplies) ∧
  (p = 0x50 → (∀ x xs, t.messageReplies = x :: xs → b = x ∧ n = s.draws ∧ ms = xs) ∧ (t.messageReplies = [] → ms = [])) ∧
  (p ≠ 0x46 → p ≠ 0x47 → p ≠ 0x50 →
    ms = t.messageReplies ∧ ∀ x, Memory.find t.data t.offset = some x → b = x ∧ n = s.draws)

theorem State.recvByte_gives (s : State) (t : Target) (p : Byte) :
    ∃ b n ms, s.Gives t p b n ms ∧ s.recvByte t p = ({ s with draws := n }, { t with messageReplies := ms }, b) := by
  unfold State.recvByte
  split
  case isTrue hp =>
    have hne : p ≠ 0x50 := by rcases hp with rfl | rfl <;> decide
    exact ⟨t.status, s.draws, t.messageReplies, ⟨fun _ => ⟨rfl, rfl, rfl⟩, fun h => absurd h hne,
      fun h1 h2 _ => (hp.elim h1 h2).elim⟩, rfl⟩
  case isFalse hstatus =>
    split
    case isTrue hp =>
      cases hms : t.messageReplies with
      | cons x xs =>
        exact ⟨x, s.draws, xs, ⟨fun h => absurd h hstatus, fun _ => by simp [hms], fun _ _ h => absurd hp h⟩, rfl⟩
      | nil =>
        have ht : { t with messageReplies := [] } = t := by rw [← hms]
        exact ⟨s.drawByte.2, s.draws + 1, [],
          ⟨fun h => absurd h hstatus, fun _ => by simp [hms], fun _ _ h => absurd hp h⟩, by rw [ht]; rfl⟩
    case isFalse hp =>
      cases hx : Memory.find t.data t.offset with
      | some x =>
        exact ⟨x, s.draws, t.messageReplies,
          ⟨fun h => absurd h hstatus, fun h => absurd h hp, fun _ _ _ => by simp [hx]⟩, rfl⟩
      | none =>
        exact ⟨s.drawByte.2, s.draws + 1, t.messageReplies,
          ⟨fun h => absurd h hstatus, fun h => absurd h hp, fun _ _ _ => by simp [hx]⟩, rfl⟩

namespace State.OpenAt

variable {s : State} {i : Fin 8} {t : Target} {b : Byte} {n : Nat} {ms : List Byte}

theorem readData (h : s.OpenAt i t)
    (hrecv : s.recvByte t s.ctl.phase = ({ s with draws := n }, { t with messageReplies := ms }, b)) :
    s.readData = ((({ s with draws := n } : State).upd fun c =>
      c.byteMoved { t with offset := t.offset + 1, messageReplies := ms } b).pioClose
        (decide (t.dataLength ≤ t.offset + 1)) (continueInType s.ctl.phase)).map fun u => (u, b) := by
  simp only [State.readData, h.target, if_neg h.dataAvail, State.recv, hrecv, Controller.byteMoved_eq_read,
    State.upd_ctl, Controller.byteMoved_phase]

theorem datRead_goesOn (h : s.OpenAt i t)
    (hrecv : s.recvByte t s.ctl.phase = ({ s with draws := n }, { t with messageReplies := ms }, b))
    (hlast : ¬s.ctl.onLastByte t) :
    s.datRead = some (({ s with draws := n } : State).upd fun c =>
      c.transferGoesOn { t with offset := t.offset + 1, messageReplies := ms } b, b) := by
  have hread := h.readData hrecv
  rw [State.pioClose_goesOn (s := { s with draws := n }) hlast, ← State.readRegister_data, ← h.sasr] at hread
  exact State.datRead_of_stays hread (.inr (.inl (h.goesOn _ b).sasr))

theorem datRead_closes (h : s.OpenAt i t)
    (hrecv : s.recvByte t s.ctl.phase = ({ s with draws := n }, { t with messageReplies := ms }, b))
    (hlast : s.ctl.onLastByte t) (hroom : s.ctl.cmdq.length < s.ctl.cfg.cmdqCap) :
    s.datRead = some (({ s with draws := n } : State).upd fun c => c.transferCloses
      { t with offset := t.offset + 1, messageReplies := ms } b (continueInType s.ctl.phase), b) := by
  have hread := h.readData hrecv
  rw [State.pioClose_closes (s := { s with draws := n }) hlast hroom, ← State.readRegister_data, ← h.sasr] at hread
  exact State.datRead_of_stays hread (.inr (.inl ((s.ctl.byteMoved_sasr _ b).trans h.sasr)))

end State.OpenAt

theorem continueInType_eq (phase : Byte) : continueInType phase = if 0x46 ≤ phase.toNat then 3 else 1 := rfl

/-- Settles O17: what the target gives is `recvByte`'s, and the byte goes on or closes the transfer as in a write. -/
theorem dataReadMovesOneByte : Obligations.DataReadMovesOneByte := by
  intro s i t hp hi ht ho
  have h : s.OpenAt i t := ⟨hp, hi, ht, ho⟩
  obtain ⟨b, n, ms, ⟨hstatus, hmessage, hdata⟩, hrecv⟩ := s.recvByte_gives t s.ctl.phase
  refine ⟨b, n, ms, hstatus, hmessage, hdata, fun hlast => ?goesOn, fun hlast hroom => ?closes⟩
  case goesOn =>
    rw [h.datRead_goesOn hrecv hlast, State.upd, Controller.transferGoesOn, Controller.byteMoved_eq _ _ _ hi]
  case closes =>
    rw [h.datRead_closes hrecv hlast hroom, State.upd, Controller.transferCloses, Controller.byteMoved_eq _ _ _ hi,
      h.curTid, continueInType_eq]
    rfl

end Sys2Proof.Machine
end

section
/-! A whole transfer written at DATA (40_register_access.md R153, the round-trip property). -/

namespace Sys2Proof.Machine

/-! ### A target that takes several bytes (20_memory.md R90) -/

/-- The target after the bytes of `vs`. -/
def Target.sends (t : Target) (vs : List Byte) : Target := vs.foldl (fun t v => (t.send v).1) t

namespace Target

@[simp] theorem sends_cons (t : Target) (v : Byte) (vs : List Byte) : t.sends (v :: vs) = (t.send v).1.sends vs := rfl

theorem sends_concat (t : Target) (vs : List Byte) (v : Byte) : t.sends (vs ++ [v]) = ((t.sends vs).send v).1 := by
  simp [sends]

@[simp] theorem send_offset (t : Target) (v : Byte) : (t.send v).1.offset = t.offset + 1 := by
  rw [send_fst]; split <;> rfl
@[simp] theorem send_direction (t : Target) (v : Byte) : (t.send v).1.direction = t.direction := by
  rw [send_fst]; split <;> rfl
@[simp] theorem send_dataLength (t : Target) (v : Byte) : (t.send v).1.dataLength = t.dataLength := by
  rw [send_fst]; split <;> rfl

theorem send_data_eq {t : Target} (h : t.direction ≠ .command) (v : Byte) :
    (t.send v).1.data = Memory.put t.data t.offset v := by rw [send_fst, if_neg h]

theorem send_cmd_eq {t : Target} (h : t.direction = .command) (v : Byte) :
    (t.send v).1.cmd = t.cmd.setIfInBounds t.offset v := by rw [send_fst, if_pos h]

theorem sends_offset (t : Target) (vs : List Byte) : (t.sends vs).offset = t.offset + vs.length := by
  induction vs generalizing t with
  | nil => rfl
  | cons v vs ih => rw [sends_cons, ih, send_offset, List.length_cons]; omega

/-- Data bytes land one after the other from the offset. -/
theorem sends_data {t : Target} (h : t.direction ≠ .command) (vs : List Byte) :
    (t.sends vs).data = Memory.putAll t.data t.offset vs := by
  induction vs generalizing t with
  | nil => rfl
  | cons v vs ih =>
    rw [sends_cons, ih (by rwa [send_direction]), send_offset, send_data_eq h, Memory.putAll]

/-- Later command bytes leave the places before the offset alone. -/
theorem sends_cmd_before {t : Target} (h : t.direction = .command) {j : Nat} (hj : j < t.offset) (vs : List Byte) :
    (t.sends vs).cmd[j]? = t.cmd[j]? := by
  induction vs generalizing t with
  | nil => rfl
  | cons v vs ih =>
    rw [sends_cons, ih (by rwa [send_direction]) (by rw [send_offset]; omega), send_cmd_eq h,
      Vector.getElem?_setIfInBounds_ne (by omega)]

/-- Command bytes land one after the other from the offset, the first sixteen (log 10). -/
theorem sends_cmd {t : Target} (h : t.direction = .command) {vs : List Byte} {k : Nat} (hk : k < vs.length)
    (hfits : t.offset + k < 16) : (t.sends vs).cmd[t.offset + k]? = vs[k]? := by
  induction vs generalizing t k with
  | nil => exact absurd hk (Nat.not_lt_zero k)
  | cons v vs ih =>
    have hd : (t.send v).1.direction = .command := by rwa [send_direction]
    cases k with
    | zero =>
      rw [sends_cons, sends_cmd_before hd (by rw [send_offset]; omega), send_cmd_eq h]
      simp [show t.offset < 16 from hfits]
    | succ k =>
      have hsucc : t.offset + (k + 1) = (t.send v).1.offset + k := by rw [send_offset]; omega
      rw [sends_cons, hsucc, ih hd (by simpa using hk) (by omega), List.getElem?_cons_succ]

end Target

/-! ### Where the last byte is (44_dma_engines.md R263) -/

theorem onLastByte_iff (c : Controller) (t : Target) : c.onLastByte t ↔ pumpBytes c t = 1 := by
  unfold pumpBytes; omega

/-- A byte of a transfer leaves one less to go. -/
theorem pumpBytes_transferGoesOn {c : Controller} {t u : Target} (h : ¬c.onLastByte t) (hlen : u.dataLength = t.dataLength)
    (hoff : u.offset = t.offset + 1) (b : Byte) : pumpBytes (c.transferGoesOn u b) u + 1 = pumpBytes c t := by
  have htc : (c.transferGoesOn u b).tc.toNat = c.tc.toNat - 1 := c.byteMoved_tc_toNat u b
  unfold pumpBytes
  omega

/-! ### Several writes of DAT -/

namespace State

variable {s u : State}

theorem datWrites_cons {v : Byte} (h : s.datWrite v = some u) (vs : List Byte) : s.datWrites (v :: vs) = u.datWrites vs := by
  rw [datWrites, h]

theorem datWrites_concat {ws : List Byte} (h : s.datWrites ws = some u) (v : Byte) :
    s.datWrites (ws ++ [v]) = u.datWrite v := by
  induction ws generalizing s with
  | nil =>
    obtain rfl : s = u := Option.some.inj h
    cases hv : s.datWrite v <;> simp [datWrites, hv]
  | cons w ws ih =>
    cases hw : s.datWrite w with
    | none => simp [datWrites, hw] at h
    | some x =>
      rw [datWrites_cons hw] at h
      rw [List.cons_append, datWrites_cons hw, ih h]

/-- Short of the last byte every write goes on: the transfer is open, the target has the bytes, nothing is enqueued. -/
theorem OpenAt.datWrites {i : Fin 8} {t : Target} (h : s.OpenAt i t) {ws : List Byte} (hws : ws.length < pumpBytes s.ctl t) :
    ∃ u, s.datWrites ws = some u ∧ u.OpenAt i (t.sends ws) ∧ u.ctl.cmdq = s.ctl.cmdq ∧ u.ctl.cfg = s.ctl.cfg ∧
      u.ctl.tc.toNat = s.ctl.tc.toNat - ws.length ∧ pumpBytes u.ctl (t.sends ws) + ws.length = pumpBytes s.ctl t := by
  induction ws generalizing s t with
  | nil => exact ⟨s, rfl, h, rfl, rfl, rfl, rfl⟩
  | cons w ws ih =>
    rw [List.length_cons] at hws ⊢
    have hlast : ¬s.ctl.onLastByte t := by rw [onLastByte_iff]; omega
    have hcount := pumpBytes_transferGoesOn hlast (t.send_dataLength w) (t.send_offset w) w
    have htc : (s.ctl.transferGoesOn (t.send w).1 w).tc.toNat = s.ctl.tc.toNat - 1 := s.ctl.byteMoved_tc_toNat _ w
    obtain ⟨u, hu, hopen, hcmdq, hcfg, hutc, hleft⟩ := ih (h.goesOn (t.send w).1 w) (by rw [upd_ctl]; omega)
    refine ⟨u, by rwa [datWrites_cons (h.datWrite_goesOn hlast w)], hopen, ?_, ?_, ?_, ?_⟩
    · exact hcmdq.trans (s.ctl.byteMoved_cmdq _ w)
    · exact hcfg.trans (s.ctl.byteMoved_cfg _ w)
    · rw [hutc, upd_ctl, htc]; omega
    · rw [upd_ctl] at hleft; rw [Target.sends_cons]; omega

end State

/-- Settles O19: all bytes but the last go on, the last closes, and the target has them in the order written. -/
theorem pioWriteDeliversEveryByteInOrder : Obligations.PioWriteDeliversEveryByteInOrder := by
  intro s i t vs hp hi ht ho hlen hroom
  have h : s.OpenAt i t := ⟨hp, hi, ht, ho⟩
  refine ⟨fun ws hpre hne => ?before, ?closes⟩
  case before =>
    have hshort : ws.length < vs.length := lt_of_le_of_ne hpre.length_le fun e => hne (hpre.eq_of_length e)
    obtain ⟨u, hu, hopen, hcmdq, -⟩ := h.datWrites (hlen ▸ hshort)
    exact ⟨u, hu, hopen.dataAvail, hcmdq⟩
  case closes =>
    obtain rfl | ⟨ws, v, rfl⟩ := vs.eq_nil_or_concat'
    · exact absurd hlen.symm (Nat.ne_of_gt (Nat.le_max_left 1 _))
    rw [List.length_append, List.length_singleton] at hlen
    obtain ⟨u, hu, hopen, hcmdq, hcfg, htc, hleft⟩ := h.datWrites (ws := ws) (by omega)
    have hlast : u.ctl.onLastByte (t.sends ws) := (onLastByte_iff ..).mpr (by omega)
    have hclose := hopen.datWrite_closes hlast (by rwa [hcmdq, hcfg]) v
    rw [← Target.sends_concat] at hclose
    refine ⟨_, t.sends (ws ++ [v]), (State.datWrites_concat hu v).trans hclose,
      (hopen.goesOn (t.sends (ws ++ [v])) v).target, t.sends_offset _, fun hdir k hk => ?data,
      fun hdir k hk hfits => Target.sends_cmd hdir hk hfits, rfl, ?tc, ?cmdq⟩
    case data => rw [Target.sends_data hdir, Memory.find_putAll, if_pos (by omega), Nat.add_sub_cancel_left]
    case tc =>
      rw [List.length_append, List.length_singleton, ← Nat.sub_sub, ← htc]
      exact u.ctl.byteMoved_tc_toNat _ v
    case cmdq =>
      rw [← hcmdq, ← hopen.curTid]
      rfl

end Sys2Proof.Machine
end

section
/-! The delay queue (41_delay_queue.md): what a post writes, what one poll delivers, and how a posted status that waits
alone counts down. -/

namespace Sys2Proof.Machine

/-! ### The post (R170, R172) -/

theorem countdown_eq_max (delay : Nat) : countdown delay = max 1 delay := by
  unfold countdown; split <;> omega

theorem countdown_eq_ite (delay : Nat) : countdown delay = if delay = 0 then 1 else delay := by
  rw [countdown_eq_max]; split <;> omega

/-! ### The poll (R174 to R176) -/

theorem getLast?_expired (q : List Slot) :
    (expired q).getLast? = (q.filter fun x => decide (x.count = 1)).getLast?.map Slot.status := List.getLast?_map

theorem expired_append (q r : List Slot) : expired (q ++ r) = expired q ++ expired r := by
  rw [expired, List.filter_append, List.map_append, ← expired, ← expired]

theorem expired_cons (st : Byte) (n : Nat) (q : List Slot) :
    expired (⟨st, n⟩ :: q) = if n = 1 then st :: expired q else expired q := by
  by_cases hn : n = 1 <;> simp [expired, hn]

namespace Controller

theorem deliver_deliver (c : Controller) (first last : Byte) : (c.deliver first).deliver last = c.deliver last :=
  congrArg (fun d : Controller => { d with auxInt := true, busy := false }) (c.setReg_setReg SCSI_STATUS first last)

/-- R175: of several deliveries the last one is seen. -/
theorem foldl_deliver (c : Controller) (sts : List Byte) :
    sts.foldl deliver c = sts.getLast?.elim c c.deliver := by
  induction sts generalizing c with
  | nil => rfl
  | cons st sts ih =>
    rw [List.foldl_cons, ih, List.getLast?_cons]
    cases sts.getLast? with
    | none => rfl
    | some last => exact c.deliver_deliver st last

theorem pollOnce_of_pending {c : Controller} (h : c.auxInt = true) : c.pollOnce = c := if_pos h

/-- A poll that is not blocked counts down, and leaves the status of the last slot that stood at 1. -/
theorem pollOnce_of_not_pending {c : Controller} (h : c.auxInt = false) :
    c.pollOnce = (expired c.queue).getLast?.elim { c with queue := c.queue.map pollSlot }
      (deliver { c with queue := c.queue.map pollSlot }) := by
  rw [pollOnce, h, if_neg Bool.false_ne_true, foldl_deliver]

/-- The interrupt stands until the host reads it away: polls change nothing more. -/
theorem iterate_pollOnce_of_pending {c : Controller} (h : c.auxInt = true) (k : Nat) : pollOnce^[k] c = c :=
  Function.iterate_fixed (pollOnce_of_pending h) k

end Controller

/-- Settles O20: the post is that record, with `Countdown` written out. -/
theorem postWritesTheSlotAtTheIndex : Obligations.PostWritesTheSlotAtTheIndex := by
  intro c status delay
  rw [Controller.post, countdown_eq_ite]

/-- Settles O21: the gate first; then the last of the expired slots, if there is one, is the delivery that is seen. -/
theorem pollCountsDownAndDelivers : Obligations.PollCountsDownAndDelivers := by
  intro c
  refine ⟨Controller.pollOnce_of_pending, fun h => ?_⟩
  dsimp only
  split
  next hnone => rw [Controller.pollOnce_of_not_pending h, getLast?_expired, hnone]; rfl
  next x hsome => rw [Controller.pollOnce_of_not_pending h, getLast?_expired, hsome]; rfl

/-! ### A queue in which one slot at most is occupied -/

/-- Every slot is free. -/
def AllFree (q : List Slot) : Prop := ∀ x ∈ q, x.count = 0

namespace AllFree

variable {q : List Slot}

theorem map_pollSlot (h : AllFree q) : q.map pollSlot = q := by
  have hslot : ∀ x ∈ q, pollSlot x = id x := by
    intro x hx
    rw [pollSlot, h x hx, Nat.zero_sub, ← h x hx, id]
  rw [List.map_congr_left hslot, List.map_id]

theorem expired_eq_nil (h : AllFree q) : expired q = [] := by
  rw [expired, List.map_eq_nil_iff, List.filter_eq_nil_iff]
  exact fun x hx => by simp [h x hx]

theorem map_pollSlot_set (h : AllFree q) (i : Nat) (st : Byte) (n : Nat) :
    (q.set i ⟨st, n⟩).map pollSlot = q.set i ⟨st, n - 1⟩ := by
  rw [List.map_set, h.map_pollSlot]; rfl

theorem expired_set (h : AllFree q) {i : Nat} (hi : i < q.length) (st : Byte) (n : Nat) :
    expired (q.set i ⟨st, n⟩) = if n = 1 then [st] else [] := by
  have hbefore : AllFree (q.take i) := fun x hx => h x (List.mem_of_mem_take hx)
  have hafter : AllFree (q.drop (i + 1)) := fun x hx => h x (List.mem_of_mem_drop hx)
  rw [List.set_eq_take_append_cons_drop, if_pos hi, expired_append, expired_cons, hbefore.expired_eq_nil,
    hafter.expired_eq_nil, List.nil_append]

end AllFree

namespace Controller

/-! ### A status that waits alone (R177) -/

/-- A status has been posted and its slot stands at `n`. -/
def awaits (c : Controller) (st : Byte) (n : Nat) : Controller :=
  { c with queue := c.queue.set c.qIndex { status := st, count := n }, qIndex := (c.qIndex + 1) % c.cfg.qcap }

theorem post_eq_awaits (c : Controller) (st : Byte) (delay : Nat) : c.post st delay = c.awaits st (max 1 delay) := by
  rw [post, countdown_eq_max, awaits]

theorem awaits_map_pollSlot (c : Controller) (hfree : AllFree c.queue) (st : Byte) (n : Nat) :
    { c.awaits st n with queue := (c.awaits st n).queue.map pollSlot } = c.awaits st (n - 1) := by
  rw [awaits, hfree.map_pollSlot_set, awaits]

section
variable {c : Controller} (hint : c.auxInt = false) (hfree : AllFree c.queue) (hidx : c.qIndex < c.queue.length)
include hint hfree hidx

theorem pollOnce_awaits {n : Nat} (hn : n ≠ 1) (st : Byte) : (c.awaits st n).pollOnce = c.awaits st (n - 1) := by
  have hq : expired (c.awaits st n).queue = [] := (hfree.expired_set hidx st n).trans (if_neg hn)
  rw [pollOnce_of_not_pending (c := c.awaits st n) hint, hq]
  exact c.awaits_map_pollSlot hfree st n

theorem pollOnce_awaits_one (st : Byte) : (c.awaits st 1).pollOnce = (c.awaits st 0).deliver st := by
  have hq : expired (c.awaits st 1).queue = [st] := (hfree.expired_set hidx st 1).trans (if_pos rfl)
  rw [pollOnce_of_not_pending (c := c.awaits st 1) hint, hq]
  exact congrArg (deliver · st) (c.awaits_map_pollSlot hfree st 1)

theorem iterate_pollOnce_awaits {k n : Nat} (hk : k < n) (st : Byte) :
    pollOnce^[k] (c.awaits st n) = c.awaits st (n - k) := by
  induction k with
  | zero => rfl
  | succ k ih =>
    rw [Function.iterate_succ_apply', ih (by omega), pollOnce_awaits hint hfree hidx (by omega), Nat.sub_sub]

theorem iterate_pollOnce_delivers {k n : Nat} (hn : 1 ≤ n) (hk : n ≤ k) (st : Byte) :
    pollOnce^[k] (c.awaits st n) = (c.awaits st 0).deliver st := by
  obtain ⟨m, rfl⟩ := Nat.exists_eq_add_of_le' hn
  obtain ⟨j, rfl⟩ := Nat.exists_eq_add_of_le' hk
  have hdue : pollOnce^[m] (c.awaits st (m + 1)) = c.awaits st 1 := by
    rw [iterate_pollOnce_awaits hint hfree hidx m.lt_add_one, Nat.add_sub_cancel_left]
  rw [Function.iterate_add_apply, Function.iterate_succ_apply', hdue, pollOnce_awaits_one hint hfree hidx,
    iterate_pollOnce_of_pending (deliver_auxInt _ st)]

end

end Controller

/-- Settles O22: the slot counts down alone, the poll that finds it at 1 delivers, and the pending interrupt stops the
queue. -/
theorem postedStatusArrivesOnTime : Obligations.PostedStatusArrivesOnTime := by
  intro c status delay k hint hfree hidx
  rw [Controller.post_eq_awaits]
  refine ⟨fun hk => ?early, fun hk => ?late⟩
  case early =>
    rw [Controller.iterate_pollOnce_awaits hint hfree hidx hk]
    exact ⟨hint, rfl⟩
  case late =>
    rw [Controller.iterate_pollOnce_delivers hint hfree hidx (Nat.le_max_left 1 delay) hk]
    exact ⟨rfl, rfl, rfl⟩

end Sys2Proof.Machine
end

section
/-! The transfer counter as it counts down (43_transfer_callbacks.md R230, R231). -/

namespace Sys2Proof.Machine

namespace Controller

theorem tc_decTc_toNat (c : Controller) : c.decTc.1.tc.toNat = c.tc.toNat - 1 := by
  rw [tc_decTc]
  split
  case isTrue h => rw [h]; rfl
  case isFalse h => bv_omega

theorem tc_iterate_decTc (c : Controller) (k : Nat) :
    ((fun c => (decTc c).1)^[k] c).tc.toNat = c.tc.toNat - k := by
  induction k with
  | zero => rfl
  | succ k ih => rw [Function.iterate_succ_apply', tc_decTc_toNat, ih, Nat.sub_sub]

/-- A call answers true exactly when the counter stood at 0 or 1. -/
theorem decTc_snd_iff (c : Controller) : c.decTc.2 = true ↔ c.tc.toNat ≤ 1 := by
  rw [decTc_snd, beq_iff_eq, ← BitVec.toNat_inj, tc_decTc_toNat]
  exact Nat.sub_eq_zero_iff_le

end Controller

/-- Settles O41, by induction on the number of calls. -/
theorem counterReachesZeroOnce : Obligations.CounterReachesZeroOnce := by
  intro c k
  refine ⟨c.tc_iterate_decTc k, ?_⟩
  rw [Controller.decTc_snd_iff, c.tc_iterate_decTc]
  omega

end Sys2Proof.Machine
end

section
/-! The current target, and what it answers to `analyze` and `execute` (20_memory.md R90). -/

namespace Sys2Proof.Machine

theorem Direction.isIn_iff (d : Direction) : d.isIn = true ↔ d = .toHost := by cases d <;> decide

theorem Direction.isOut_iff (d : Direction) : d.isOut = true ↔ d = .toDevice ∨ d = .command := by cases d <;> decide

/-- Target `t` once it has reported `a` (log 8). -/
def Target.analyzed (t : Target) (a : AnalyzeReply) : Target :=
  { t with
    cmdLength := a.cmdLength.val, direction := reportedDirection a.direction, dataLength := a.dataLength
    analyzeReplies := t.analyzeReplies.tail }

theorem Target.analyzed_eq (t : Target) {a : AnalyzeReply} {d : Reported} (h : a.direction = d) :
    t.analyzed a = { t with
      cmdLength := a.cmdLength.val, direction := reportedDirection d, dataLength := a.dataLength
      analyzeReplies := t.analyzeReplies.tail } := by
  rw [Target.analyzed, h]

theorem Target.analyzed_isOut (t : Target) (a : AnalyzeReply) :
    (t.analyzed a).direction.isOut = true ↔ a.direction = .toDevice := by
  rw [Direction.isOut_iff, Target.analyzed]
  cases a.direction <;> simp [reportedDirection]

theorem State.analyze_eq (s : State) (t : Target) :
    s.analyze t = ({ s with draws := s.drawsAnalyzed t }, t.analyzed (s.analyzeAnswer t)) := by
  cases h : t.analyzeReplies <;>
    simp [State.analyze, State.drawsAnalyzed, State.analyzeAnswer, Target.analyzed, h]

theorem State.execute_eq (s : State) (t : Target) :
    s.execute t = ({ s with draws := t.drawsExecuted s.draws }, t.executed s.draws) := by
  cases h : t.executeReplies <;>
    simp [State.execute, Target.drawsExecuted, Target.executed, Target.executeAnswer, Direction.isIn_iff, h]

theorem Target.executed_of_toHost {t : Target} (h : t.direction = .toHost) {n : Nat} {bs : List Byte}
    (hbs : (t.executeAnswer n).data = bs) :
    t.executed n = { t with
      status := (t.executeAnswer n).status, executeReplies := t.executeReplies.tail
      data := Memory.putAll [] 0 bs, dataLength := bs.length } := by
  rw [Target.executed, ← hbs]; exact if_pos h

theorem Target.executed_of_ne_toHost {t : Target} (h : t.direction ≠ .toHost) (n : Nat) :
    t.executed n = { t with status := (t.executeAnswer n).status, executeReplies := t.executeReplies.tail } := by
  rw [Target.executed]; exact if_neg h

/-! An execution after a report. -/

theorem Target.executed_analyzed_of_toHost (t : Target) {a : AnalyzeReply} (h : a.direction = .toHost) {n : Nat}
    {bs : List Byte} (hbs : (t.executeAnswer n).data = bs) :
    (t.analyzed a).executed n = { t with
      cmdLength := a.cmdLength.val, direction := .toHost, analyzeReplies := t.analyzeReplies.tail
      status := (t.executeAnswer n).status, executeReplies := t.executeReplies.tail
      data := Memory.putAll [] 0 bs, dataLength := bs.length } := by
  rw [t.analyzed_eq h]
  exact Target.executed_of_toHost rfl hbs

theorem Target.executed_analyzed_of_ne_toHost (t : Target) {a : AnalyzeReply} {d : Reported} (h : a.direction = d)
    (hd : reportedDirection d ≠ .toHost) (n : Nat) :
    (t.analyzed a).executed n = { t with
      cmdLength := a.cmdLength.val, direction := reportedDirection d, dataLength := a.dataLength
      analyzeReplies := t.analyzeReplies.tail
      status := (t.executeAnswer n).status, executeReplies := t.executeReplies.tail } := by
  rw [t.analyzed_eq h]
  exact Target.executed_of_ne_toHost hd n

/-- The current ID is `i`, and target `t` is attached there. -/
structure State.Current (s : State) (i : Fin 8) (t : Target) : Prop where
  curTarget : s.ctl.curTarget = some i
  attached : s.ctl.targets[i.val] = some t

theorem State.exists_current {s : State} {t : Target} (h : s.target = some t) : ∃ i, s.Current i t :=
  let ⟨i, hi, ht⟩ := s.ctl.target_eq_some h
  ⟨i, hi, ht⟩

namespace State.Current

variable {s : State} {i : Fin 8} {t : Target}

theorem target (h : s.Current i t) : s.target = some t := by
  simp [State.target, Controller.target, Controller.targetAt, h.curTarget, h.attached]

/-- A free value is drawn, and the current target becomes `u`. -/
theorem setTarget (h : s.Current i t) (n : Nat) (u : Target) :
    (({ s with draws := n } : State).upd fun c => c.setTarget u).Current i u where
  curTarget := (s.ctl.setTarget_curTarget u).trans h.curTarget
  attached := by simp [Controller.setTarget_eq _ h.curTarget]

theorem analyzeTarget (h : s.Current i t) :
    s.analyzeTarget =
      ({ s with draws := s.drawsAnalyzed t } : State).upd fun c => c.setTarget (t.analyzed (s.analyzeAnswer t)) := by
  simp only [State.analyzeTarget, h.target, State.analyze_eq]

theorem analyzed (h : s.Current i t) : s.analyzeTarget.Current i (t.analyzed (s.analyzeAnswer t)) :=
  h.analyzeTarget ▸ h.setTarget _ _

theorem executeTarget (h : s.Current i t) :
    s.executeTarget =
      ({ s with draws := t.drawsExecuted s.draws } : State).upd fun c => c.setTarget (t.executed s.draws) := by
  simp only [State.executeTarget, h.target, State.execute_eq]

theorem executed (h : s.Current i t) : s.executeTarget.Current i (t.executed s.draws) :=
  h.executeTarget ▸ h.setTarget _ _

end State.Current

end Sys2Proof.Machine
end

section
/-! MSG_CONT_OUT (43_transfer_callbacks.md R240 to R247). -/

namespace Sys2Proof.Machine

theorem dataPhase_iff (p : Byte) : dataPhase p = true ↔ p = 0x44 ∨ p = 0x45 := by
  rw [dataPhase, Bool.or_eq_true, beq_iff_eq, beq_iff_eq]; rfl

theorem statusPhase_iff (p : Byte) : statusPhase p = true ↔ p = 0x46 ∨ p = 0x47 := by
  rw [statusPhase, Bool.or_eq_true, beq_iff_eq, beq_iff_eq]; rfl

/-! ### The advancing arms (R247) -/

/-- An advancing arm has run: the current target, at ID `i`, is left as `t`, the phase is `next`, and `status` is posted
for the next poll. -/
def Controller.advancedTo (c : Controller) (i : Fin 8) (next status : Byte) (t : Target) : Controller :=
  { c with
    regs := (((c.regs.set 0x10 next).set 0x12 0).set 0x13 0).set 0x14 0
    targets := c.targets.set i.val (some t)
    busy := false
    scratchOff := 0
    queue := c.queue.set c.qIndex { status := status, count := 1 }
    qIndex := (c.qIndex + 1) % c.cfg.qcap }

section
variable {c : Controller} {i : Fin 8} (hi : c.curTarget = some i) (next status : Byte) (t u : Target)
include hi

theorem Controller.advanceTail_setTarget :
    ((c.setTarget t).setPhase next).advanceTail status = c.advancedTo i next status t := by
  rw [Controller.setTarget_eq c hi]; rfl

/-- What stood at the current ID before is written over. -/
theorem Controller.advancedTo_setTarget :
    (c.setTarget u).advancedTo i next status t = c.advancedTo i next status t := by
  rw [Controller.setTarget_eq c hi]
  simp only [Controller.advancedTo, Vector.set_set]

end

theorem Controller.advancedTo_phase (c : Controller) (i : Fin 8) (next status : Byte) (t : Target) :
    (c.advancedTo i next status t).phase = next := by
  have h : (c.advancedTo i next status t).phase = (((c.setPhase next).setTc 0).setTarget t).phase := by
    rw [Controller.setTarget_phase]; rfl
  rw [h]; simp

namespace State.Current

variable {s : State} {i : Fin 8} {t : Target}

theorem modTarget_advance (h : s.Current i t) (f : Target → Target) (next status : Byte) :
    (s.modTarget f).upd (fun c => (c.setPhase next).advanceTail status) =
      { s with ctl := s.ctl.advancedTo i next status (f t) } := by
  simp only [State.modTarget, h.target, State.upd, Controller.advanceTail_setTarget h.curTarget]

theorem begin_advance (h : s.Current i t) (next status : Byte) :
    s.beginTarget.upd (fun c => (c.setPhase next).advanceTail status) =
      { s with ctl := s.ctl.advancedTo i next status t.begin } :=
  h.modTarget_advance Target.begin next status

theorem execute_advance (h : s.Current i t) (next status : Byte) :
    s.executeTarget.beginTarget.upd (fun c => (c.setPhase next).advanceTail status) =
      { s with
        draws := t.drawsExecuted s.draws
        ctl := s.ctl.advancedTo i next status (t.executed s.draws).begin } := by
  rw [h.executed.begin_advance, h.executeTarget]
  simp only [State.upd, Controller.advancedTo_setTarget h.curTarget]

/-! ### The arms by the phase (R240 to R246) -/

theorem transferOut_message (h : s.Current i t) (hp : s.ctl.regs[0x10].toNat < 0x20) :
    s.transferOut.1 = s.messageSent := by
  have hp : s.ctl.phase.toNat < PHASE_MESSAGE_SENT.toNat := hp
  simp only [State.transferOut, h.target, if_pos hp]

theorem transferOut_command (h : s.Current i t) (hp : s.ctl.regs[0x10] = 0x30) : s.transferOut.1 = s.commandSent := by
  have hp : s.ctl.phase = PHASE_COMMAND := hp
  have hlow : ¬s.ctl.phase.toNat < PHASE_MESSAGE_SENT.toNat := hp ▸ by decide
  simp only [State.transferOut, h.target, if_neg hlow, if_pos hp]

theorem transferOut_data (h : s.Current i t) (hp : s.ctl.regs[0x10] = 0x44 ∨ s.ctl.regs[0x10] = 0x45) :
    s.transferOut.1 =
      if t.offset < t.dataLength then s.upd fun c => c.post (CSR_XFER_DONE + PHS_DATA_OUT) c.cfg.tRetryOut
      else s.dataSent t := by
  have hdata : dataPhase s.ctl.phase = true := (dataPhase_iff _).mpr hp
  have hp : s.ctl.phase = 0x44 ∨ s.ctl.phase = 0x45 := hp
  have hlow : ¬s.ctl.phase.toNat < PHASE_MESSAGE_SENT.toNat := by obtain hp | hp := hp <;> rw [hp] <;> decide
  have hcommand : ¬s.ctl.phase = PHASE_COMMAND := by obtain hp | hp := hp <;> rw [hp] <;> decide
  simp only [State.transferOut, h.target, if_neg hlow, if_neg hcommand, if_pos hdata]
  split <;> rfl

theorem transferOut_otherwise (h : s.Current i t) (hmessage : ¬s.ctl.regs[0x10].toNat < 0x20)
    (hcommand : s.ctl.regs[0x10] ≠ 0x30) (hdata : ¬(s.ctl.regs[0x10] = 0x44 ∨ s.ctl.regs[0x10] = 0x45)) :
    s.transferOut.1 = s := by
  have hmessage : ¬s.ctl.phase.toNat < PHASE_MESSAGE_SENT.toNat := hmessage
  have hcommand : ¬s.ctl.phase = PHASE_COMMAND := hcommand
  have hdata : ¬dataPhase s.ctl.phase = true := (dataPhase_iff _).not.mpr hdata
  simp only [State.transferOut, h.target, if_neg hmessage, if_neg hcommand, if_neg hdata]

/-! ### The message was sent (R240) -/

theorem messageSent (h : s.Current i t) {n : Nat} {b : Byte}
    (hb : s.orDraw (Memory.find s.ctl.scratch 0) = ({ s with draws := n }, b)) :
    s.messageSent = { s with
      draws := n
      ctl := s.ctl.advancedTo i 0x20 0x1A { t with identify := b, status := 0, offset := 0 } } := by
  have hn : ({ s with draws := n } : State).Current i t := ⟨h.curTarget, h.attached⟩
  simp only [State.messageSent, hb]
  exact hn.modTarget_advance _ PHASE_MESSAGE_SENT (CSR_XFER_DONE + PHS_COMMAND)

/-! ### The command was sent (R241) -/

theorem commandSent (h : s.Current i t) :
    s.commandSent = s.analyzeTarget.commandAnalyzed (t.analyzed (s.analyzeAnswer t)) := by
  simp only [State.commandSent, h.analyzed.target]

/-- An outbound command waits for its data. -/
theorem commandSent_waits (h : s.Current i t) (hdir : (s.analyzeAnswer t).direction = .toDevice)
    (hlen : 0 < (s.analyzeAnswer t).dataLength) :
    s.commandSent = { s with
      draws := s.drawsAnalyzed t
      ctl := s.ctl.advancedTo i 0x45 0x18 (t.analyzed (s.analyzeAnswer t)).begin } := by
  have hout : (t.analyzed (s.analyzeAnswer t)).direction.isOut = true ∧
      0 < (t.analyzed (s.analyzeAnswer t)).dataLength :=
    ⟨(t.analyzed_isOut _).mpr hdir, hlen⟩
  rw [h.commandSent, State.commandAnalyzed, if_pos hout, h.analyzed.begin_advance, h.analyzeTarget]
  simp only [State.upd, Controller.advancedTo_setTarget h.curTarget]
  rfl

/-- Every other command is executed, and enters the data phase if it has brought data, else the status phase. -/
theorem commandSent_executes (h : s.Current i t) {u : Target}
    (hno : ¬((s.analyzeAnswer t).direction = .toDevice ∧ 0 < (s.analyzeAnswer t).dataLength))
    (hu : (t.analyzed (s.analyzeAnswer t)).executed (s.drawsAnalyzed t) = u) :
    s.commandSent = { s with
      draws := t.drawsExecuted (s.drawsAnalyzed t)
      ctl := if u.direction = .toHost ∧ 0 < u.dataLength then s.ctl.advancedTo i 0x45 0x19 u.begin
        else s.ctl.advancedTo i 0x46 0x1B u.begin } := by
  have hout : ¬((t.analyzed (s.analyzeAnswer t)).direction.isOut = true ∧
      0 < (t.analyzed (s.analyzeAnswer t)).dataLength) := by
    rwa [Target.analyzed_isOut]
  have hdraws : s.analyzeTarget.draws = s.drawsAnalyzed t := by rw [h.analyzeTarget]; rfl
  have hexec : s.analyzeTarget.executeTarget.target = some u := by
    rw [h.analyzed.executed.target, hdraws, hu]
  have hadvance (next status : Byte) :
      s.analyzeTarget.executeTarget.beginTarget.upd (fun c => (c.setPhase next).advanceTail status) =
        { s with draws := t.drawsExecuted (s.drawsAnalyzed t), ctl := s.ctl.advancedTo i next status u.begin } := by
    rw [h.analyzed.execute_advance, hdraws, hu, h.analyzeTarget]
    simp only [State.upd, Controller.advancedTo_setTarget h.curTarget]
    rfl
  simp only [h.commandSent, State.commandAnalyzed, if_neg hout, hexec, Direction.isIn_iff, hadvance]
  split <;> rfl

end State.Current

/-- A byte that may be free: the one that is there, or a draw. -/
theorem State.exists_orDraw (s : State) (v : Option Byte) :
    ∃ b n, (∀ x, v = some x → b = x ∧ n = s.draws) ∧ s.orDraw v = ({ s with draws := n }, b) := by
  cases v with
  | none => exact ⟨Config.freeByte s.draws, s.draws + 1, nofun, rfl⟩
  | some x => exact ⟨x, s.draws, fun y hy => ⟨Option.some.inj hy, rfl⟩, rfl⟩

/-- Settles O36: the arm of a message sent, with the mirrored byte or a drawn one. -/
theorem contOutForwardsTheIdentifyMessage : Obligations.ContOutForwardsTheIdentifyMessage := by
  intro tid cmd s i t hi ht hp
  have h : s.Current i t := ⟨hi, ht⟩
  obtain ⟨b, n, hfree, hb⟩ := s.exists_orDraw (Memory.find s.ctl.scratch 0)
  refine ⟨b, n, hfree, congrArg Host.Outcome.next ?_⟩
  rw [h.transferOut_message hp, h.messageSent hb]
  rfl

/-- Settles O37, by what the target reports: an outbound command with data waits, every other one is executed. -/
theorem contOutStartsTheCommand : Obligations.ContOutStartsTheCommand := by
  intro tid cmd s i t hi ht hp
  have h : s.Current i t := ⟨hi, ht⟩
  have hexec : exec (.msgContOut tid cmd) s = .next s.commandSent :=
    congrArg Host.Outcome.next (h.transferOut_command hp)
  rw [hexec]
  refine ⟨fun (hd : (s.analyzeAnswer t).direction = .toDevice) (hl : 0 < (s.analyzeAnswer t).dataLength) => ?waits,
    fun (hd : (s.analyzeAnswer t).direction = .toHost) hbs => ?data,
    fun (hd : (s.analyzeAnswer t).direction = .toHost) hbs => ?noData,
    fun (hd : (s.analyzeAnswer t).direction = .nothing) => ?nothing,
    fun (hd : (s.analyzeAnswer t).direction = .toDevice) (hl : (s.analyzeAnswer t).dataLength = 0) => ?empty⟩
  case waits =>
    rw [h.commandSent_waits hd hl, t.analyzed_eq hd]
    rfl
  case data =>
    rw [h.commandSent_executes (by simp [hd]) (t.executed_analyzed_of_toHost hd rfl),
      if_pos ⟨rfl, List.length_pos_of_ne_nil hbs⟩]
    rfl
  case noData =>
    rw [h.commandSent_executes (by simp [hd]) (t.executed_analyzed_of_toHost hd hbs),
      if_neg fun hu => absurd hu.2 (lt_irrefl 0)]
    rfl
  case nothing =>
    rw [h.commandSent_executes (by simp [hd]) (t.executed_analyzed_of_ne_toHost hd (by decide) _),
      if_neg fun hu => nomatch hu.1]
    rfl
  case empty =>
    rw [h.commandSent_executes (by simp [hl]) (t.executed_analyzed_of_ne_toHost hd (by decide) _),
      if_neg fun hu => nomatch hu.1]
    rfl

/-! ### The data was sent (R244, R245) -/

/-- Settles O38: the retry, and the end of the data, which runs an outbound command first. -/
theorem contOutRetriesOrEndsTheData : Obligations.ContOutRetriesOrEndsTheData := by
  intro tid cmd s i t hi ht hp
  have h : s.Current i t := ⟨hi, ht⟩
  refine ⟨fun hlt => ?retries, fun hle hd => ?ends, fun hle hd => ?executes⟩
  case retries =>
    refine congrArg Host.Outcome.next ?_
    rw [h.transferOut_data hp, if_pos hlt, State.upd, Controller.post_eq_awaits]
    rfl
  case ends =>
    refine congrArg Host.Outcome.next ?_
    have hout : ¬t.direction.isOut = true := by obtain hd | hd := hd <;> rw [hd] <;> decide
    rw [h.transferOut_data hp, if_neg (Nat.not_lt.mpr hle), State.dataSent, if_neg hout, h.begin_advance]
    rfl
  case executes =>
    refine congrArg Host.Outcome.next ?_
    have hout : t.direction.isOut = true := (Direction.isOut_iff _).mpr hd
    have hin : t.direction ≠ .toHost := by obtain hd | hd := hd <;> rw [hd] <;> decide
    rw [h.transferOut_data hp, if_neg (Nat.not_lt.mpr hle), State.dataSent, if_pos hout, h.execute_advance,
      Target.executed_of_ne_toHost hin]
    rfl

end Sys2Proof.Machine
end

section
/-! MSG_CONT_IN and MSG_CONT_IN_MSG (43_transfer_callbacks.md R248, 45_dispatch.md R307, R309). -/

namespace Sys2Proof.Machine

theorem dataPh_status (d : Direction) : CSR_XFER_DONE + dataPh d = if d = .toHost then 0x19 else 0x18 := by
  cases d <;> rfl

/-- The transfer goes on: the mirror starts over, and `status` is posted once more. -/
def Controller.retriedWith (c : Controller) (status : Byte) : Controller :=
  { c with scratchOff := 0 }.awaits status (max 1 c.cfg.tRetryIn)

theorem State.post_restarted (s : State) (status : Byte) :
    ((s.upd fun c => { c with scratchOff := 0 }).upd fun c => c.post status c.cfg.tRetryIn) =
      { s with ctl := s.ctl.retriedWith status } :=
  congrArg (fun c => { s with ctl := c }) (Controller.post_eq_awaits ..)

namespace State.Current

variable {s : State} {i : Fin 8} {t : Target}

theorem inAdvance (h : s.Current i t) (next status : Byte) :
    s.inAdvance next status = { s with ctl := s.ctl.advancedTo i next status t.begin } :=
  h.begin_advance next status

/-- What the callback makes of the controller, by the phase and by what is outstanding. -/
theorem transferIn_eq (h : s.Current i t) (msgFlag : Bool) :
    (s.transferIn msgFlag).1 = { s with
      ctl :=
        if s.ctl.phase = 0x44 ∨ s.ctl.phase = 0x45 then
          if t.offset < t.dataLength then s.ctl.retriedWith (if t.direction = .toHost then 0x19 else 0x18)
          else s.ctl.advancedTo i 0x46 (if s.ctl.tc = 0 then 0x1B else 0x4B) t.begin
        else if s.ctl.phase = 0x46 ∨ s.ctl.phase = 0x47 then s.ctl.advancedTo i 0x50 0x1F t.begin
        else if s.ctl.phase = 0x50 then
          if t.offset < t.dataLength then s.ctl.retriedWith 0x1F
          else { s.ctl with selected := false }.advancedTo i 0x60 0x85 t.begin
        else { s.ctl with scratchOff := 0 } } := by
  have hphase : { s.ctl with scratchOff := 0 }.phase = s.ctl.phase := rfl
  have htc : { s.ctl with scratchOff := 0 }.tc = s.ctl.tc := rfl
  have hmessage : PHASE_MESSAGE_IN = 0x50 := rfl
  have hunexp : (if s.ctl.tc = 0 then CSR_XFER_DONE else CSR_UNEXP) + PHS_STATUS =
      if s.ctl.tc = 0 then 0x1B else 0x4B := by split <;> rfl
  have hu : (s.upd fun c => { c with scratchOff := 0 }).Current i t := ⟨h.curTarget, h.attached⟩
  have hdisc : ((s.upd fun c => { c with scratchOff := 0 }).upd fun c => { c with selected := false }).Current i t :=
    ⟨h.curTarget, h.attached⟩
  simp only [State.transferIn, h.target, State.upd_ctl, hphase, htc, hmessage, hunexp, dataPhase_iff, statusPhase_iff,
    dataPh_status]
  split
  case isTrue =>
    split
    · exact s.post_restarted _
    · exact hu.inAdvance ..
  case isFalse =>
    split
    case isTrue => exact hu.inAdvance ..
    case isFalse =>
      split
      case isTrue =>
        split
        · exact s.post_restarted _
        · exact hdisc.inAdvance ..
      case isFalse => rfl

end State.Current

/-- Settles O39, phase by phase: the two messages differ in the flag, which nothing reads. -/
theorem contInGoesThroughThePhases : Obligations.ContInGoesThroughThePhases := by
  intro tid cmd s j hj
  obtain ⟨m, hexec⟩ : ∃ m, exec j s = .next (s.transferIn m).1 := by
    obtain rfl | rfl := hj
    · exact ⟨false, rfl⟩
    · exact ⟨true, rfl⟩
  rw [hexec]
  refine ⟨fun hnone => ?noTarget, fun i t hi ht => ?phases⟩
  case noTarget => simp only [State.transferIn, hnone]
  case phases =>
    have h : s.Current i t := ⟨hi, ht⟩
    have hphase : s.ctl.phase = s.ctl.regs[0x10] := rfl
    rw [h.transferIn_eq m, hphase]
    refine ⟨fun hp hlt => ?_, fun hp hle => ?_, fun hp => ?_, fun hp hlt => ?_, fun hp hle => ?_, fun hp => ?_⟩
    · rw [if_pos hp, if_pos hlt]; rfl
    · rw [if_pos hp, if_neg (Nat.not_lt.mpr hle)]; rfl
    · rw [if_neg (by obtain hp | hp := hp <;> rw [hp] <;> decide), if_pos hp]; rfl
    · rw [hp, if_neg (by decide), if_neg (by decide), if_pos rfl, if_pos hlt]; rfl
    · rw [hp, if_neg (by decide), if_neg (by decide), if_pos rfl, if_neg (Nat.not_lt.mpr hle)]; rfl
    · simp only [List.mem_cons, List.not_mem_nil, or_false, not_or] at hp
      obtain ⟨h44, h45, h46, h47, h50⟩ := hp
      rw [if_neg (not_or.mpr ⟨h44, h45⟩), if_neg (not_or.mpr ⟨h46, h47⟩), if_neg h50]

end Sys2Proof.Machine
end

section
/-! The command phase (10_state.md R24, 43_transfer_callbacks.md R250): the operations that leave it alone, and the
moves the others make. -/

namespace Sys2Proof.Machine

/-! ### What leaves the phase alone -/

@[simp] theorem State.recompute_phase (s : State) : s.recompute.ctl.phase = s.ctl.phase := rfl

@[simp] theorem State.wtcStep_phase (s : State) : s.wtcStep.ctl.phase = s.ctl.phase := by
  unfold State.wtcStep; dsimp only; split_ifs <;> rfl

@[simp] theorem State.pumpStore_phase (s : State) (b : Byte) : (s.pumpStore b).ctl.phase = s.ctl.phase := by
  unfold State.pumpStore
  split
  case h_3 => rfl
  all_goals simp

@[simp] theorem State.pumpFetch_phase (s : State) : s.pumpFetch.1.ctl.phase = s.ctl.phase := by
  unfold State.pumpFetch; split <;> simp [State.memRead, State.drawByte]

@[simp] theorem State.pumpAdvance_phase (s : State) (inbound : Bool) :
    (s.pumpAdvance inbound).ctl.phase = s.ctl.phase := by
  unfold State.pumpAdvance
  split
  · exact State.wtcStep_phase _
  · exact State.wtcStep_phase _
  all_goals rfl

@[simp] theorem State.pumpCount_phase (s : State) (inbound : Bool) (b : Byte) (ended : Bool) :
    (s.pumpCount inbound b ended).1.ctl.phase = s.ctl.phase := by
  simp [State.pumpCount]

@[simp] theorem State.pumpByte_phase (s : State) (t : Target) : (s.pumpByte t).1.ctl.phase = s.ctl.phase := by
  unfold State.pumpByte; split <;> simp

@[simp] theorem State.pumpLoop_phase (n : Nat) (s : State) : (State.pumpLoop n s).ctl.phase = s.ctl.phase := by
  induction n generalizing s with
  | zero => rfl
  | succ n ih =>
    unfold State.pumpLoop
    split
    · rfl
    · split
      · exact s.pumpByte_phase _
      · exact (ih _).trans (s.pumpByte_phase _)

@[simp] theorem State.pump_phase (s : State) : s.pump.1.ctl.phase = s.ctl.phase := by
  unfold State.pump
  split
  · rfl
  · split_ifs
    case neg => exact State.pumpLoop_phase _ s
    all_goals rfl

@[simp] theorem State.modTarget_phase (s : State) (f : Target → Target) : (s.modTarget f).ctl.phase = s.ctl.phase := by
  unfold State.modTarget; split <;> simp

@[simp] theorem State.beginTarget_phase (s : State) : s.beginTarget.ctl.phase = s.ctl.phase := s.modTarget_phase _

@[simp] theorem State.executeTarget_phase (s : State) : s.executeTarget.ctl.phase = s.ctl.phase := by
  unfold State.executeTarget
  split
  · rfl
  · simp [State.execute_eq]

@[simp] theorem Controller.deliver_phase (c : Controller) (st : Byte) : (c.deliver st).phase = c.phase :=
  c.phase_setReg_ne (by decide) st

@[simp] theorem Controller.pollOnce_phase (c : Controller) : c.pollOnce.phase = c.phase := by
  cases hint : c.auxInt with
  | true => rw [Controller.pollOnce_of_pending hint]
  | false =>
    rw [Controller.pollOnce_of_not_pending hint]
    cases (expired c.queue).getLast? with
    | none => rfl
    | some st => exact Controller.deliver_phase _ st

@[simp] theorem Controller.retriedWith_phase (c : Controller) (st : Byte) : (c.retriedWith st).phase = c.phase := rfl

/-! ### The reset (42_chip_commands.md R190) -/

theorem Controller.reg_zeroRegs (rs : List RegNum) (c : Controller) (r : RegNum) :
    (c.zeroRegs rs).reg r = if r ∈ rs then 0 else c.reg r := by
  induction rs generalizing c with
  | nil => rfl
  | cons r' rs ih =>
    rw [Controller.zeroRegs, ih, Controller.reg_setReg]
    by_cases hr : r' = r
    · simp [hr]
    · simp [hr, Ne.symm hr]

theorem Controller.resetChip_phase (c : Controller) : c.resetChip.phase = 0 := by
  have hregs : c.resetChip.regs = (c.zeroRegs resetRegs).regs := by simp only [Controller.resetChip]
  rw [Controller.phase_congr hregs, Controller.phase, Controller.reg_zeroRegs]
  exact if_pos (by decide)

theorem State.resetProc_phase (s : State) (irq : Bool) : (s.resetProc irq).ctl.phase = 0 := by
  cases irq <;> simp [State.resetProc, Controller.resetChip_phase]

theorem State.boardReset_phase (s : State) : s.boardReset.ctl.phase = 0 := by
  have h := s.resetProc_phase false
  unfold State.boardReset
  generalize s.resetProc false = u at h ⊢
  exact h

/-! ### The selection (R199) -/

theorem Controller.lookup_setPhase (c : Controller) (v : Byte) : (c.setPhase v).lookup = c.lookup := by
  have hid : (c.setPhase v).destId = c.destId := by
    simp only [Controller.destId, Controller.reg_setPhase_ne c (show COMMAND_PHASE ≠ DESTINATION_ID by decide)]
  unfold Controller.lookup
  rw [hid]
  rfl

theorem State.select_phase (s : State) (atn : Bool) :
    (s.ctl.lookup = none ∧ (s.select atn).ctl.phase = 0x00) ∨
      (s.ctl.lookup ≠ none ∧ (s.select atn).ctl.phase = if atn then 0x10 else 0x30) := by
  have hidle : (s.upd fun c => c.setPhase PHASE_IDLE).ctl.lookup = s.ctl.lookup := s.ctl.lookup_setPhase _
  cases hid : s.ctl.lookup with
  | none =>
    refine .inl ⟨rfl, ?_⟩
    simp only [State.select, hidle, hid]
    exact s.ctl.phase_setPhase _
  | some id =>
    refine .inr ⟨Option.some_ne_none id, ?_⟩
    simp only [State.select, hidle, hid]
    cases atn with
    | true => exact Controller.phase_setPhase _ _
    | false => exact Controller.phase_setPhase _ _

/-! ### Transfer Info (R220) -/

theorem State.transferOpen_phase (s : State) (sbt : Bool) (t : Target) :
    (s.transferOpen sbt t).ctl.phase = if s.ctl.phase = 0x20 then 0x30 else s.ctl.phase := by
  unfold State.transferOpen
  extract_lets entering t₁ u
  have hcounted (c : Controller) : { c.setTc (transferCount sbt c.tc) with scratchOff := 0 }.phase = c.phase :=
    c.phase_setTc (transferCount sbt c.tc)
  have hphase : u.ctl.phase = if s.ctl.phase = 0x20 then 0x30 else s.ctl.phase := by
    refine (hcounted _).trans ?_
    by_cases hp : s.ctl.phase = 0x20
    · have hentering : entering = true := beq_iff_eq.mpr hp
      rw [if_pos hentering, if_pos hp, Controller.setTarget_phase]
      exact Controller.phase_setPhase _ _
    · have hentering : ¬entering = true := fun h => hp (beq_iff_eq.mp h)
      rw [if_neg hentering, if_neg hp]
  split
  · exact hphase
  · exact (u.ctl.setTarget_phase _).trans hphase

/-! ### The callbacks (43_transfer_callbacks.md R240 to R248) -/

/-- The moves of `transferOut` from phase `a` (R250). -/
def continuesOut (a b : Byte) : Prop :=
  (a.toNat < 0x20 ∧ b = 0x20) ∨ (a = 0x30 ∧ (b = 0x45 ∨ b = 0x46)) ∨ ((a = 0x44 ∨ a = 0x45) ∧ b = 0x46)

/-- The moves of `transferIn` from phase `a` (R250). -/
def continuesIn (a b : Byte) : Prop :=
  ((a = 0x44 ∨ a = 0x45) ∧ b = 0x46) ∨ ((a = 0x46 ∨ a = 0x47) ∧ b = 0x50) ∨ (a = 0x50 ∧ b = 0x60)

theorem phaseMove_msgContOut (tid cmd : Byte) (c : Controller) (b : Byte) :
    phaseMove (.msgContOut tid cmd) c b ↔ continuesOut c.phase b := Iff.rfl

theorem phaseMove_msgContIn (tid cmd : Byte) (c : Controller) (b : Byte) :
    phaseMove (.msgContIn tid cmd) c b ↔ continuesIn c.phase b := Iff.rfl

theorem phaseMove_msgContInMsg (tid cmd : Byte) (c : Controller) (b : Byte) :
    phaseMove (.msgContInMsg tid cmd) c b ↔ continuesIn c.phase b := Iff.rfl

theorem State.transferIn_phase (s : State) (msgFlag : Bool) :
    (s.transferIn msgFlag).1.ctl.phase = s.ctl.phase ∨ continuesIn s.ctl.phase (s.transferIn msgFlag).1.ctl.phase := by
  cases ht : s.target with
  | none => left; simp only [State.transferIn, ht]
  | some t =>
    obtain ⟨i, h⟩ := State.exists_current ht
    rw [h.transferIn_eq msgFlag]
    dsimp only
    split
    case isTrue hp =>
      split
      · exact .inl (Controller.retriedWith_phase ..)
      · exact .inr (.inl ⟨hp, Controller.advancedTo_phase ..⟩)
    case isFalse =>
      split
      case isTrue hp => exact .inr (.inr (.inl ⟨hp, Controller.advancedTo_phase ..⟩))
      case isFalse =>
        split
        case isTrue hp =>
          split
          · exact .inl (Controller.retriedWith_phase ..)
          · exact .inr (.inr (.inr ⟨hp, Controller.advancedTo_phase ..⟩))
        case isFalse => exact .inl rfl

theorem State.Current.dataSent_phase {s : State} {i : Fin 8} {t : Target} (h : s.Current i t) :
    (s.dataSent t).ctl.phase = 0x46 := by
  unfold State.dataSent
  dsimp only
  split
  · rw [h.execute_advance]; exact Controller.advancedTo_phase ..
  · rw [h.begin_advance]; exact Controller.advancedTo_phase ..

theorem State.Current.commandSent_phase {s : State} {i : Fin 8} {t : Target} (h : s.Current i t) :
    s.commandSent.ctl.phase = 0x45 ∨ s.commandSent.ctl.phase = 0x46 := by
  by_cases hwaits : (s.analyzeAnswer t).direction = .toDevice ∧ 0 < (s.analyzeAnswer t).dataLength
  · rw [h.commandSent_waits hwaits.1 hwaits.2]
    exact .inl (Controller.advancedTo_phase ..)
  · rw [h.commandSent_executes hwaits rfl]
    dsimp only
    split
    · exact .inl (Controller.advancedTo_phase ..)
    · exact .inr (Controller.advancedTo_phase ..)

theorem State.Current.messageSent_phase {s : State} {i : Fin 8} {t : Target} (h : s.Current i t) :
    s.messageSent.ctl.phase = 0x20 := by
  obtain ⟨b, n, -, hb⟩ := s.exists_orDraw (Memory.find s.ctl.scratch 0)
  rw [h.messageSent hb]
  exact Controller.advancedTo_phase ..

theorem State.transferOut_phase (s : State) :
    s.transferOut.1.ctl.phase = s.ctl.phase ∨ continuesOut s.ctl.phase s.transferOut.1.ctl.phase := by
  cases ht : s.target with
  | none => left; simp only [State.transferOut, ht]
  | some t =>
    obtain ⟨i, h⟩ := State.exists_current ht
    by_cases hmessage : s.ctl.phase.toNat < 0x20
    · rw [h.transferOut_message hmessage]
      exact .inr (.inl ⟨hmessage, h.messageSent_phase⟩)
    by_cases hcommand : s.ctl.phase = 0x30
    · rw [h.transferOut_command hcommand]
      exact .inr (.inr (.inl ⟨hcommand, h.commandSent_phase⟩))
    by_cases hdata : s.ctl.phase = 0x44 ∨ s.ctl.phase = 0x45
    · rw [h.transferOut_data hdata]
      split
      · exact .inl rfl
      · exact .inr (.inr (.inr ⟨hdata, h.dataSent_phase⟩))
    · rw [h.transferOut_otherwise hmessage hcommand hdata]
      exact .inl rfl

/-! ### Select-and-Transfer (42_chip_commands.md R207 to R216) -/

/-- A command resumed after its command bytes (R207): step A leaves the phase. -/
theorem State.xferSelected_phase_of_resumed {s : State} (hs : s.ctl.selected = true) (hp : 0x30 < s.ctl.phase.toNat)
    (atn : Bool) (id : Fin 8) : (s.xferSelected atn id).ctl.phase = s.ctl.phase := by
  have hs : (s.upd fun c => { c with curTarget := some id }).ctl.selected = true := hs
  have hp : ¬(s.upd fun c => { c with curTarget := some id }).ctl.phase.toNat ≤ PHASE_COMMAND.toNat :=
    Nat.not_le.mpr hp
  simp only [State.xferSelected, if_pos hs, if_neg hp]
  rfl

/-- Step B (R208). -/
theorem State.xferExecute_phase (s : State) (t : Target) :
    (s.xferExecute t).ctl.phase = if s.ctl.phase.toNat ≤ 0x41 then 0x45 else s.ctl.phase := by
  unfold State.xferExecute
  split
  case isTrue hp => exact (Controller.phase_setPhase _ _).trans (if_pos hp).symm
  case isFalse hp => exact (if_neg hp).symm

theorem State.xferPumped_phase (s : State) (d : Direction) :
    (s.xferPumped d).1.ctl.phase = s.ctl.phase ∨ (s.xferPumped d).1.ctl.phase = 0x46 := by
  have hpump := s.pump_phase
  unfold State.xferPumped
  dsimp only
  generalize s.pump.1 = u at hpump ⊢
  split
  · exact .inl hpump
  · split
    · exact .inl hpump
    · have hexec : (if d.isOut then u.executeTarget else u).ctl.phase = s.ctl.phase := by
        split
        · exact u.executeTarget_phase.trans hpump
        · exact hpump
      generalize (if d.isOut then u.executeTarget else u) = v at hexec ⊢
      split
      · exact .inl hexec
      · exact .inr (Controller.phase_setPhase _ _)

theorem State.xferData_phase (s : State) (t : Target) :
    (s.xferData t).1.ctl.phase = s.ctl.phase ∨ (s.xferData t).1.ctl.phase = 0x46 := by
  unfold State.xferData
  split_ifs
  case neg => exact s.xferPumped_phase t.direction
  all_goals exact .inl rfl

/-- Step C stops in the data phase only, and leaves it or enters the status phase (R209, R210). -/
theorem State.xferDataPhase_phase {s : State} {tc0 : Count} {t : Target} (hstop : (s.xferDataPhase tc0 t).2 = true) :
    s.ctl.phase = 0x45 ∧
      ((s.xferDataPhase tc0 t).1.ctl.phase = 0x45 ∨ (s.xferDataPhase tc0 t).1.ctl.phase = 0x46) := by
  unfold State.xferDataPhase at hstop ⊢
  split at hstop
  case isFalse => cases hstop
  case isTrue hp =>
    rw [if_pos hp]
    dsimp only at hstop ⊢
    have hentered : (s.upd fun c => { c with scratchOff := 0 }.setTc tc0).ctl.phase = 0x45 :=
      (Controller.phase_setTc _ _).trans hp
    generalize s.upd (fun c => { c with scratchOff := 0 }.setTc tc0) = u at hstop hentered ⊢
    have hmoved : (if t.hasData then u.xferData t else (u, false)).1.ctl.phase = 0x45 ∨
        (if t.hasData then u.xferData t else (u, false)).1.ctl.phase = 0x46 := by
      split
      · exact hentered ▸ u.xferData_phase t
      · exact .inl hentered
    generalize (if t.hasData then u.xferData t else (u, false)) = r at hstop hmoved ⊢
    split at hstop
    case isFalse => cases hstop
    case isTrue hr => exact ⟨hp, by rwa [if_pos hr]⟩

theorem State.xferComplete_phase (s : State) : s.xferComplete.ctl.phase = 0x60 := by
  have hcomplete : ({ s.ctl with selected := false }.setPhase PHASE_COMPLETE).phase = 0x60 :=
    Controller.phase_setPhase _ _
  simp only [State.xferComplete, State.upd_ctl]
  split
  · exact hcomplete
  · exact hcomplete

theorem State.selXfer_phase (s : State) (atn sbt : Bool) :
    phaseMove (.selXfer sbt) s.ctl (s.selXfer atn).ctl.phase := by
  have hlookup : (s.upd fun c => { c with dataAvail := .closed }).ctl.lookup = s.ctl.lookup := rfl
  cases hid : s.ctl.lookup with
  | none =>
    refine .inl ⟨hid, ?_⟩
    simp only [State.selXfer, hlookup, hid]
    exact Controller.phase_setPhase _ _
  | some id =>
    have hfound : s.ctl.lookup ≠ none := by rw [hid]; exact Option.some_ne_none id
    simp only [State.selXfer, hlookup, hid]
    split
    case isFalse => exact .inr (.inl ⟨hfound, State.xferComplete_phase _⟩)
    case isTrue hstop =>
      obtain ⟨hdata, hmoved⟩ := State.xferDataPhase_phase hstop
      refine .inr (.inr ⟨hfound, ?_, hmoved⟩)
      cases hs : s.ctl.selected with
      | false => exact .inl rfl
      | true =>
        by_cases hp : s.ctl.phase.toNat ≤ 0x41
        · exact .inr (.inl hp)
        · have hresumed := State.xferSelected_phase_of_resumed (s := s.upd fun c => { c with dataAvail := .closed }) hs
            (lt_trans (by decide) (Nat.not_le.mp hp)) atn id
          rw [State.xferExecute_phase, hresumed] at hdata
          exact .inr (.inr ((if_neg hp).symm.trans hdata))

/-! ### The tick (45_dispatch.md R316) -/

theorem State.dmaDrive_phase (s : State) :
    s.dmaDrive.ctl.phase = s.ctl.phase ∨ ∃ t, s.target = some t ∧
      phaseMove (if t.direction = .toHost then .msgContIn 0 0 else .msgContOut 0 0) s.ctl s.dmaDrive.ctl.phase := by
  have hpump : (s.pump.1.upd fun c => { c with dataAvail := .closed }).ctl.phase = s.ctl.phase := s.pump_phase
  cases ht : s.target with
  | none => left; simp only [State.dmaDrive, ht]; rfl
  | some t =>
    simp only [State.dmaDrive, ht, Direction.isIn_iff, Option.some.injEq, exists_eq_left']
    generalize (s.pump.1.upd fun c => { c with dataAvail := .closed }) = u at hpump ⊢
    split
    case isTrue => exact .inl rfl
    case isFalse =>
      split
      case isFalse => exact .inl s.pump_phase
      case isTrue =>
        split
        case isTrue =>
          exact (hpump ▸ u.transferIn_phase false).imp_right (phaseMove_msgContIn 0 0 s.ctl _).mpr
        case isFalse =>
          exact (hpump ▸ u.transferOut_phase).imp_right (phaseMove_msgContOut 0 0 s.ctl _).mpr

theorem State.tick_phase (s : State) : s.tick.ctl.phase = s.dmaContinue.ctl.phase := by simp [State.tick]

/-! ### Every instruction -/

theorem execNegateAck_phase {sbt : Bool} {s t : State} (h : execNegateAck sbt s = .next t) :
    t.ctl.phase = s.ctl.phase ∨ (s.ctl.phase = 0x50 ∧ t.ctl.phase = 0x60) := by
  unfold execNegateAck at h
  split at h
  case isTrue hp =>
    cases h
    obtain hstay | ⟨ha, -⟩ | ⟨ha, -⟩ | ⟨-, hb⟩ := s.transferIn_phase false
    · exact .inl hstay
    · exact absurd ha (hp ▸ by decide)
    · exact absurd ha (hp ▸ by decide)
    · exact .inr ⟨hp, hb⟩
  case isFalse => cases h; exact .inl rfl

theorem execTransInfo_phase {sbt : Bool} {s t : State} (h : execTransInfo sbt s = .next t) :
    t.ctl.phase = s.ctl.phase ∨ (s.ctl.phase = 0x20 ∧ t.ctl.phase = 0x30) := by
  unfold execTransInfo at h
  split at h
  · cases h; exact .inl rfl
  · cases h
    rw [State.transferOpen_phase]
    split
    case isTrue hp => exact .inr ⟨hp, rfl⟩
    case isFalse => exact .inl rfl

/-- A MSG_CMD is left out: it moves the phase as the chip command it carries (`exec_carried`). -/
theorem exec_phase {i : Instr} (hi : ∀ tid cmd, i ≠ .msgCmd tid cmd) {s t : State} (h : exec i s = .next t) :
    t.ctl.phase = s.ctl.phase ∨ phaseMove i s.ctl t.ctl.phase := by
  cases i with
  | msgCmd tid cmd => exact absurd rfl (hi tid cmd)
  | msgShutdown => cases h; exact .inl rfl
  | msgContIn tid cmd => cases h; exact (s.transferIn_phase false).imp_right (phaseMove_msgContIn tid cmd s.ctl _).mpr
  | msgContOut tid cmd => cases h; exact s.transferOut_phase.imp_right (phaseMove_msgContOut tid cmd s.ctl _).mpr
  | msgContInMsg tid cmd =>
    cases h
    exact (s.transferIn_phase true).imp_right (phaseMove_msgContInMsg tid cmd s.ctl _).mpr
  | msgUnknown => cases h; exact .inl rfl
  | reset => cases h; exact .inr (s.resetProc_phase true)
  | abort => cases h; exact .inl rfl
  | negateAck sbt => exact execNegateAck_phase (sbt := sbt) h
  | selAtn => cases h; exact .inr (s.select_phase true)
  | sel => cases h; exact .inr (s.select_phase false)
  | selAtnXfer => cases h; exact .inr (s.selXfer_phase true false)
  | selXfer => cases h; exact .inr (s.selXfer_phase false false)
  | transInfo sbt => exact execTransInfo_phase (sbt := sbt) h
  | invalid => cases h; exact .inl rfl

/-- Settles O57: an instruction moves the phase as its chip command does, a tick as its callback does, and board reset
clears it with the other registers. -/
theorem phaseMovesByTheTable : Obligations.PhaseMovesByTheTable := by
  refine ⟨fun i s t h => exec_phase (carried_ne_msgCmd i) ((exec_carried i s).symm.trans h), fun s => ?tick,
    State.boardReset_phase⟩
  case tick =>
    rw [State.tick_phase, State.dmaContinue]
    split
    case isTrue hopen => exact s.dmaDrive_phase.imp_right fun ⟨t, ht, hm⟩ => ⟨hopen.1, t, ht, hm⟩
    case isFalse => exact .inl rfl

end Sys2Proof.Machine
end

section
/-! The bits of the DMA controllers' registers, the DMA modes, the pump's refusals and the word counter
(44_dma_engines.md R260, R263, R266, R275). -/

namespace Sys2Proof.Machine

/-! ### One bit of a register -/

theorem hasBit_twoPow {w : Nat} (v : BitVec w) (k : Nat) : hasBit v (BitVec.twoPow w k) = v.getLsbD k := by
  rw [hasBit, BitVec.and_twoPow]
  cases h : v.getLsbD k with
  | false => simp
  | true =>
    have hk : k < w := BitVec.lt_of_getLsbD h
    simp [← BitVec.toNat_inj, Nat.mod_eq_of_lt (Nat.pow_lt_pow_right Nat.one_lt_two hk)]

theorem hasBit_or {w : Nat} (v m n : BitVec w) : hasBit v (m ||| n) = (hasBit v m || hasBit v n) := by
  simp only [hasBit]
  rw [Bool.eq_iff_iff]
  simp [BitVec.and_or_distrib_left, BitVec.or_eq_zero_iff, imp_iff_not_or]

namespace Controller

variable (c : Controller)

theorem hasBit_tcen : hasBit c.cntr CNTR_TCEN = c.cntr.getLsbD 7 := hasBit_twoPow _ 7
theorem hasBit_inten : hasBit c.cntr CNTR_INTEN = c.cntr.getLsbD 4 := hasBit_twoPow _ 4
theorem hasBit_gDirw : hasBit c.gcntr GCNTR_G_DIRW = c.gcntr.getLsbD 4 := hasBit_twoPow _ 4

theorem hasBit_requests (v : Byte) : hasBit v (ISTR_INTS ||| ISTR_E_INT) = (v.getLsbD 6 || v.getLsbD 5) := by
  rw [hasBit_or]
  exact congrArg₂ or (hasBit_twoPow v 6) (hasBit_twoPow v 5)

end Controller

/-! ### The DMA modes (R260) -/

theorem Controller.dmaMode_eq (c : Controller) : c.dmaMode = BitVec.ofNat 3 (c.regs[0x01].toNat / 32) := by
  apply BitVec.eq_of_toNat_eq
  show (c.regs[0x01].toNat >>> 5) % 2 ^ 3 = _
  rw [Nat.shiftRight_eq_div_pow, BitVec.toNat_ofNat]

/-- Settles O42: the mode is a field of CONTROL, and the default sets are lists. -/
theorem dmaModesByVariant : Obligations.DmaModesByVariant := by
  refine ⟨fun c => ?_, fun v m => ?_⟩
  · rw [Controller.canDma, List.contains_iff_mem, Controller.dmaMode_eq]
  · cases v <;> simp [defaultParams, defaultDmaModes]

/-! ### What a pump refuses (R263, R275) -/

theorem Controller.dirMismatch_gvpS2 {c : Controller} (h : c.cfg.variant = .gvpS2) (d : Direction) :
    c.dirMismatch d = (c.gcntr.getLsbD 4 != d.isOut) := by
  rw [Controller.dirMismatch, h, ← c.hasBit_gDirw]

/-- Settles O43: each refusal is a test of the pump's. -/
theorem pumpRefusesWithoutEffect : Obligations.PumpRefusesWithoutEffect := by
  refine fun s => ⟨fun h => ?_, fun hv => ?_, fun t ht hd => ?_, fun t ht hv hne => ?_⟩
  · rw [State.pump, h]
  · simp only [State.pump, hv, if_true, ite_self]
    split <;> rfl
  · simp only [State.pump, ht, if_pos hd]
  · have hdir : s.ctl.dirMismatch t.direction = true := by
      rw [Controller.dirMismatch_gvpS2 hv]
      simpa using hne
    simp only [State.pump, ht, hv, hdir]
    simp

/-! ### The word counter (R266) -/

/-- The word counter counts the byte that has just moved. -/
abbrev Controller.countsWord (c : Controller) : Prop :=
  c.cntr.getLsbD 7 = true ∧ c.acr.toNat % 2 = 0 ∧ c.wtc ≠ 0

theorem getLsbD_zero_eq_false_iff {w : Nat} (v : BitVec w) : v.getLsbD 0 = false ↔ v.toNat % 2 = 0 := by
  rw [BitVec.getLsbD, Nat.testBit_zero, decide_eq_false_iff_not, Nat.mod_two_not_eq_one]

theorem State.wtcStep_uncounted {s : State} (h : ¬s.ctl.countsWord) : s.wtcStep = s := by
  refine if_neg ?_
  rwa [Controller.hasBit_tcen, getLsbD_zero_eq_false_iff]

theorem State.wtcStep_counted {s : State} (h : s.ctl.countsWord) :
    s.wtcStep = if s.ctl.wtc = 1 then
        State.recompute { s with ctl := { s.ctl with wtc := 0, istr := s.ctl.istr ||| 0x20 } }
      else { s with ctl := { s.ctl with wtc := s.ctl.wtc - 1 } } := by
  rw [Controller.countsWord, ← getLsbD_zero_eq_false_iff, ← Controller.hasBit_tcen] at h
  refine (if_pos h).trans ?_
  simp only [sub_eq_zero]
  split
  case isTrue hlast => simp only [State.upd, hlast]; rfl
  case isFalse => rfl

/-- Settles O46, clause by clause. -/
theorem wordCounterRaisesEndOfProcess : Obligations.WordCounterRaisesEndOfProcess :=
  fun _ => ⟨State.wtcStep_uncounted, fun h hw => (State.wtcStep_counted h).trans (if_neg hw),
    fun h hw => (State.wtcStep_counted h).trans (if_pos hw)⟩

end Sys2Proof.Machine
end

section
/-! The ports of the Commodore and the GVP boards (44_dma_engines.md R280 to R293). -/

namespace Sys2Proof.Machine

/-! ### A port the board has, and one it has not (R74, R75) -/

section
variable {s : State} {p : Port}

theorem State.portAccess_read (h : hasPort s.ctl.cfg.variant p = true) : s.portAccess p .read = s.portRead p := if_pos h

theorem State.portAccess_write (h : hasPort s.ctl.cfg.variant p = true) (v : Word) :
    s.portAccess p (.write v) = s.portWrite p v := if_pos h

/-- A port of another board reads 0 and ignores writes (log 17). -/
theorem State.portAccess_absent (h : hasPort s.ctl.cfg.variant p = false) (v : Word) :
    s.portAccess p .read = .done s (some 0) ∧ s.portAccess p (.write v) = .done s none := by
  have hne : ¬hasPort s.ctl.cfg.variant p = true := Bool.eq_false_iff.mp h
  exact ⟨if_neg hne, if_neg hne⟩

end

theorem hasPort_of_either {v a b : Variant} {p : Port} (hv : v = a ∨ v = b) (ha : hasPort a p = true)
    (hb : hasPort b p = true) : hasPort v p = true := by
  obtain rfl | rfl := hv
  · exact ha
  · exact hb

/-- A strobe acts on reads as on writes (R285 to R288, R292); a read returns a free byte (log 16). -/
theorem State.portAccess_strobe {s u : State} {p : Port} {v : Word} (h : hasPort s.ctl.cfg.variant p = true)
    (hr : s.portRead p = strobe u .read) (hw : s.portWrite p v = strobe u (.write v)) :
    s.portAccess p (.write v) = .done u none ∧
      ∃ b : Byte, s.portAccess p .read = .done { u with draws := u.draws + 1 } (some (b.zeroExtend 32)) := by
  rw [State.portAccess_read h, State.portAccess_write h, hr, hw]
  exact ⟨rfl, Config.freeByte u.draws, rfl⟩

/-! ### One byte of a register (R282) -/

theorem extractLsb'_setByte (w : Word) (k j : Fin 4) (v : Byte) :
    (setByte w k v).extractLsb' (8 * j.val) 8 = if j = k then v else w.extractLsb' (8 * j.val) 8 := by
  have hmask (n : Nat) : (0xFF : Word).getLsbD n = decide (n < 8) := by
    have h : (0xFF : Word) = (BitVec.allOnes 8).setWidth 32 := rfl
    rw [h, BitVec.getLsbD_setWidth, BitVec.getLsbD_allOnes]
    by_cases hn : n < 8
    · simp [hn, show n < 32 by omega]
    · simp [hn]
  apply BitVec.eq_of_getLsbD_eq
  intro i hi
  have hj := j.isLt
  have hin : 8 * j.val + i < 32 := by omega
  simp only [setByte, BitVec.getLsbD_extractLsb', BitVec.getLsbD_or, BitVec.getLsbD_and, BitVec.getLsbD_not,
    BitVec.getLsbD_shiftLeft, hmask, BitVec.zeroExtend, BitVec.getLsbD_setWidth, hi, hin, decide_true, Bool.true_and]
  by_cases hjk : j = k
  · subst hjk
    simp [hi]
    omega
  · have hne : j.val ≠ k.val := fun e => hjk (Fin.ext e)
    by_cases hlt : j.val < k.val
    · simp [hi, hjk, show 8 * j.val + i < 8 * k.val by omega]
    · have hbeyond : ¬8 * j.val + i - 8 * k.val < 8 := by omega
      have hv : v.getLsbD (8 * j.val + i - 8 * k.val) = false := BitVec.getLsbD_of_ge _ _ (by omega)
      simp [hi, hjk, hbeyond, hv]

/-! ### The Commodore controllers (R280 to R288) -/

theorem istr_cleared (v : Byte) : clearBits (clearBits v ISTR_INTS) ISTR_E_INT = v &&& 0x9F := by
  rw [clearBits, clearBits, BitVec.and_assoc]
  rfl

/-- Settles O47, port by port. -/
theorem commodorePorts : Obligations.CommodorePorts := by
  intro s v k hv
  have hp {p : Port} (hd : hasPort .cbmDmac p = true) (hs : hasPort .cbmSdmac p = true) :
      hasPort s.ctl.cfg.variant p = true := hasPort_of_either hv hd hs
  have hcint : s.cint = State.recompute { s with ctl := { s.ctl with istr := s.ctl.istr &&& 0x9F } } := by
    rw [← istr_cleared]; rfl
  have hread {p : Port} := State.portAccess_read (s := s) (p := p)
  have hwrite {p : Port} (h : hasPort s.ctl.cfg.variant p = true) := State.portAccess_write h v
  refine ⟨hread (hp rfl rfl), hwrite (hp rfl rfl), hread (hp rfl rfl), hwrite (hp rfl rfl),
    State.portAccess_strobe (hp rfl rfl) rfl rfl, State.portAccess_strobe (hp rfl rfl) rfl rfl,
    hcint ▸ State.portAccess_strobe (hp rfl rfl) rfl rfl, State.portAccess_strobe (hp rfl rfl) rfl rfl,
    fun p habsent => State.portAccess_absent ?_ v,
    ⟨_, hwrite (hp rfl rfl), fun j => extractLsb'_setByte ..⟩,
    ⟨_, hwrite (hp rfl rfl), fun j => extractLsb'_setByte ..⟩,
    hread (hp rfl rfl), hread (hp rfl rfl)⟩
  obtain hv | hv := hv <;> rw [hv] <;>
    obtain rfl | rfl | rfl | rfl | rfl | rfl | ⟨j, rfl⟩ | ⟨j, rfl⟩ := habsent <;> rfl

/-- What an ISTR read shows (R281): the stored bits with INT_P and FE_FLG. -/
theorem Controller.istrValue_eq (c : Controller) :
    c.istrValue = c.istr |||
      (if (c.istr.getLsbD 6 = true ∨ c.istr.getLsbD 5 = true) ∧ c.cntr.getLsbD 4 = true then 0x10 else 0x00) |||
      (if c.cfg.legacyDmac then 0x00 else 0x01) := by
  have hzero (v : Byte) : v ||| 0x00 = v := BitVec.or_zero
  simp only [Controller.istrValue, Controller.hasBit_requests, Controller.hasBit_inten, Bool.and_eq_true,
    Bool.or_eq_true]
  split_ifs
  · rw [hzero]; rfl
  · rw [hzero, hzero]
  · rfl
  · rw [hzero]; rfl

/-- Settles O48: the read is a recompute, which leaves CNTR and the parameters, then `istrValue`. -/
theorem istrReadShowsTheInterrupt : Obligations.IstrReadShowsTheInterrupt := by
  intro s hv
  have hport : hasPort s.ctl.cfg.variant .istr = true := hasPort_of_either hv rfl rfl
  refine ⟨?_, fun v => State.portAccess_write hport v⟩
  rw [State.portAccess_read hport, State.portRead, Controller.istrValue_eq]
  rfl

/-! ### The GVP controllers (R289 to R293) -/

theorem half_append_bytes (g : Half) : g.extractLsb' 8 8 ++ g.extractLsb' 0 8 = g := by
  have hall : g.extractLsb' 8 8 ++ g.extractLsb' 0 8 = g.extractLsb' 0 16 :=
    BitVec.extractLsb'_append_extractLsb'_eq_extractLsb' (start₁ := 0) rfl
  rw [hall, BitVec.extractLsb'_eq_self]

/-- A write of GCNTR, its bytes side by side: G_PEND keeps its old value (R289). -/
theorem Controller.writeGcntr_append (c : Controller) (x y : Byte) :
    c.writeGcntr (x ++ y) = { c with gcntr := x ++ ((y &&& 0xFD) ||| (c.gcntr.extractLsb' 0 8 &&& 0x02)) } := by
  have hnew : clearBits (x ++ y) GCNTR_G_PEND = x ++ (y &&& 0xFD) :=
    (BitVec.and_append (x₂ := 0xFF) (y₂ := 0xFD)).trans (congrArg (· ++ (y &&& 0xFD)) BitVec.and_allOnes)
  have hold (h l : Byte) : (h ++ l) &&& GCNTR_G_PEND = (0 : Byte) ++ (l &&& 0x02) :=
    (BitVec.and_append (x₂ := 0x00) (y₂ := 0x02)).trans (congrArg (· ++ (l &&& 0x02)) BitVec.and_zero)
  have hboth (l m : Byte) : (x ++ l) ||| ((0 : Byte) ++ m) = x ++ (l ||| m) :=
    BitVec.or_append.trans (congrArg (· ++ (l ||| m)) BitVec.or_zero)
  have hkept : c.gcntr &&& GCNTR_G_PEND = (0 : Byte) ++ (c.gcntr.extractLsb' 0 8 &&& 0x02) :=
    (congrArg (· &&& GCNTR_G_PEND) (half_append_bytes c.gcntr).symm).trans (hold _ _)
  rw [Controller.writeGcntr, hnew, hkept, hboth]

/-- The high byte alone: the low byte stands, G_PEND in it. -/
theorem Controller.writeGcntr_high (c : Controller) (b : Byte) :
    c.writeGcntr (setGcntrByte c.gcntr 1 b) = { c with gcntr := b ++ c.gcntr.extractLsb' 0 8 } := by
  have hlow (v : Byte) : (v &&& 0xFD) ||| (v &&& 0x02) = v := by
    rw [← BitVec.and_or_distrib_left]
    exact BitVec.and_allOnes
  have h := c.writeGcntr_append b (c.gcntr.extractLsb' 0 8)
  rwa [hlow] at h

theorem Controller.writeGcntr_low (c : Controller) (b : Byte) :
    c.writeGcntr (setGcntrByte c.gcntr 0 b) =
      { c with gcntr := c.gcntr.extractLsb' 8 8 ++ ((b &&& 0xFD) ||| (c.gcntr.extractLsb' 0 8 &&& 0x02)) } :=
  c.writeGcntr_append _ b

/-- A port that neither GVP board has, that Series II has not, or that the pure-XT board has not. -/
theorem hasPort_gvp_absent {w : Variant} {p : Port}
    (h : (w = .gvpS1 ∨ w = .gvpS2) ∧ (p = .cntr ∨ p = .istr ∨ p = .dawr ∨ p = .stDma ∨
        p = .spDma ∨ p = .cint ∨ p = .flush ∨ p = .xtWindow ∨ (∃ j, p = .wtc j) ∨ ∃ j, p = .acr j) ∨
      w = .gvpS2 ∧ (p = .sramOff ∨ p = .sramWin) ∨ w = .none ∧ p ≠ .sel ∧ p ≠ .dat) :
    hasPort w p = false := by
  obtain ⟨rfl | rfl, hp⟩ | ⟨rfl, hp⟩ | ⟨rfl, hsel, hdat⟩ := h
  · obtain rfl | rfl | rfl | rfl | rfl | rfl | rfl | rfl | ⟨j, rfl⟩ | ⟨j, rfl⟩ := hp <;> rfl
  · obtain rfl | rfl | rfl | rfl | rfl | rfl | rfl | rfl | ⟨j, rfl⟩ | ⟨j, rfl⟩ := hp <;> rfl
  · obtain rfl | rfl := hp <;> rfl
  · cases p with
    | sel => exact absurd rfl hsel
    | dat => exact absurd rfl hdat
    | _ => rfl

/-- Settles O49, port by port. -/
theorem gvpPorts : Obligations.GvpPorts := by
  refine ⟨fun s v p hp => State.portAccess_absent (hasPort_gvp_absent hp) v, fun s k v hv => ?_⟩
  have hp {p : Port} (h1 : hasPort .gvpS1 p = true) (h2 : hasPort .gvpS2 p = true) :
      hasPort s.ctl.cfg.variant p = true := hasPort_of_either hv h1 h2
  have hread {p : Port} := State.portAccess_read (s := s) (p := p)
  have hwrite {p : Port} (h : hasPort s.ctl.cfg.variant p = true) := State.portAccess_write h v
  refine ⟨hwrite (hp rfl rfl), hread (hp rfl rfl), ?high, ?low, fun j => hread (hp rfl rfl),
    State.portAccess_strobe (hp rfl rfl) rfl rfl, State.portAccess_strobe (hp rfl rfl) rfl rfl,
    ⟨_, hwrite (hp rfl rfl), fun j => extractLsb'_setByte ..⟩, hread (hp rfl rfl),
    hwrite (hp rfl rfl), hread (hp rfl rfl), fun h1 => ?buffer⟩
  case high => rw [hwrite (hp rfl rfl), State.portWrite, State.upd, Controller.writeGcntr_high]
  case low => rw [hwrite (hp rfl rfl), State.portWrite, State.upd, Controller.writeGcntr_low]
  case buffer =>
    have hs1 {p : Port} (hp : hasPort .gvpS1 p = true) : hasPort s.ctl.cfg.variant p = true := h1 ▸ hp
    refine ⟨hwrite (hs1 rfl), hread (hs1 rfl), hwrite (hs1 rfl), ?_⟩
    obtain ⟨x, n, hx, hdraw⟩ := s.exists_orDraw (Memory.find s.ctl.sram s.ctl.sramOff)
    refine ⟨x, n, hx, ?_⟩
    rw [hread (hs1 rfl), State.portRead, hdraw]
    rfl

end Sys2Proof.Machine
end

section
/-! The frame of host memory and of the Series I buffer (20_memory.md R80, 44_dma_engines.md R263): every instruction
that runs no pump leaves both as they are. -/

namespace Sys2Proof.Machine

theorem State.memByte_congr {s t : State} (hmem : t.mem = s.mem) (hmap : t.memMap = s.memMap) (a : Word) :
    t.memByte a = s.memByte a := by
  unfold State.memByte State.decodes
  rw [hmem, hmap]

/-- Host memory and the acting controller's Series I buffer are the same in both states. -/
structure State.SameMemory (s t : State) : Prop where
  mem  : t.mem = s.mem
  sram : t.ctl.sram = s.ctl.sram

namespace State.SameMemory

theorem refl (s : State) : SameMemory s s := ⟨rfl, rfl⟩

theorem trans {s t u : State} (h : SameMemory s t) (k : SameMemory t u) : SameMemory s u :=
  ⟨k.mem.trans h.mem, k.sram.trans h.sram⟩

/-- A change of the acting controller that leaves the buffer alone. -/
theorem upd (s : State) {f : Controller → Controller} (h : (f s.ctl).sram = s.ctl.sram := by rfl) :
    SameMemory s (s.upd f) := ⟨rfl, h⟩

theorem post (s : State) (status : Byte) (delay : Controller → Nat) :
    SameMemory s (s.upd fun c => c.post status (delay c)) := upd s

theorem recompute (s : State) : SameMemory s s.recompute := ⟨rfl, rfl⟩

theorem orDraw (s : State) (v : Option Byte) : SameMemory s (s.orDraw v).1 := by
  obtain ⟨b, n, -, hdraw⟩ := s.exists_orDraw v
  exact hdraw ▸ ⟨rfl, rfl⟩

/-! ### The target's calls (20_memory.md R90) -/

theorem setTarget (s : State) (n : Nat) (t : Target) :
    SameMemory s (({ s with draws := n } : State).upd fun c => c.setTarget t) := ⟨rfl, by simp⟩

theorem modTarget (s : State) (f : Target → Target) : SameMemory s (s.modTarget f) := by
  unfold State.modTarget
  split
  · exact refl s
  · exact setTarget s s.draws _

theorem beginTarget (s : State) : SameMemory s s.beginTarget := modTarget s _

theorem analyzeTarget (s : State) : SameMemory s s.analyzeTarget := by
  unfold State.analyzeTarget
  split
  · exact refl s
  · rw [State.analyze_eq]; exact setTarget s _ _

theorem executeTarget (s : State) : SameMemory s s.executeTarget := by
  unfold State.executeTarget
  split
  · exact refl s
  · rw [State.execute_eq]; exact setTarget s _ _

/-! ### The callbacks (43_transfer_callbacks.md R239 to R248) -/

/-- The arms that advance the phase. -/
theorem beginAdvance (s : State) (next status : Byte) :
    SameMemory s (s.beginTarget.upd fun c => (c.setPhase next).advanceTail status) :=
  (beginTarget s).trans (upd _)

theorem messageSent (s : State) : SameMemory s s.messageSent := by
  unfold State.messageSent
  exact ((orDraw s _).trans (modTarget _ _)).trans (upd _)

theorem commandAnalyzed (s : State) (t : Target) : SameMemory s (s.commandAnalyzed t) := by
  unfold State.commandAnalyzed
  split
  · exact beginAdvance s _ _
  · dsimp only
    split
    · exact executeTarget s
    · split
      · exact (executeTarget s).trans (beginAdvance _ _ _)
      · exact (executeTarget s).trans (beginAdvance _ _ _)

theorem commandSent (s : State) : SameMemory s s.commandSent := by
  unfold State.commandSent
  split
  · exact refl s
  · exact (analyzeTarget s).trans (commandAnalyzed _ _)

theorem dataSent (s : State) (t : Target) : SameMemory s (s.dataSent t) := by
  unfold State.dataSent
  split
  · exact (executeTarget s).trans (beginAdvance _ _ _)
  · exact beginAdvance s _ _

theorem transferOut (s : State) : SameMemory s s.transferOut.1 := by
  unfold State.transferOut
  split
  · exact refl s
  · split
    · exact messageSent s
    · split
      · exact commandSent s
      · split
        · split
          · exact post s _ fun c => c.cfg.tRetryOut
          · exact dataSent s _
        · exact refl s

theorem transferIn (s : State) (msgFlag : Bool) : SameMemory s (s.transferIn msgFlag).1 := by
  unfold State.transferIn
  split
  · exact refl s
  · extract_lets u
    have hu : SameMemory s u := upd s
    split
    · split
      · exact hu.trans (post u _ fun c => c.cfg.tRetryIn)
      · exact hu.trans (beginAdvance u _ _)
    · split
      · exact hu.trans (beginAdvance u _ _)
      · split
        · split
          · exact hu.trans (post u _ fun c => c.cfg.tRetryIn)
          · exact (hu.trans (upd u)).trans (beginAdvance _ _ _)
        · exact hu

/-! ### The chip commands (42_chip_commands.md) -/

theorem resetProc (s : State) (irq : Bool) : SameMemory s (s.resetProc irq) := by
  have hchip : s.ctl.resetChip.sram = s.ctl.sram := by
    simp only [Controller.resetChip, (Acts.zeroRegs_same resetRegs s.ctl).1.sram]
  unfold State.resetProc
  extract_lets status u v
  have hu : SameMemory s u := upd s hchip
  clear_value u
  have hv : SameMemory u v := by
    cases irq with
    | true => exact post u status fun c => c.cfg.tReset
    | false => exact refl u
  exact (hu.trans hv).trans (recompute v)

theorem select (s : State) (atn : Bool) : SameMemory s (s.select atn) := by
  unfold State.select
  extract_lets u
  have hu : SameMemory s u := upd s
  split
  · exact hu.trans (upd u)
  · extract_lets v w
    have hv : SameMemory u v := SameMemory.trans (upd u) (beginTarget _)
    have hw : SameMemory s w := (hu.trans hv).trans (upd v)
    split
    · exact hw.trans (upd w)
    · exact hw.trans (upd w)

theorem transferOpen (s : State) (sbt : Bool) (t : Target) : SameMemory s (s.transferOpen sbt t) := by
  unfold State.transferOpen
  extract_lets entering t₁ u
  have hu : SameMemory s u := by
    refine upd s ?_
    simp only [Controller.setTc_sram]
    split <;> simp
  split
  · exact hu.trans (upd u)
  · exact hu.trans (upd u (Controller.setTarget_sram ..))

theorem execTransInfo (sbt : Bool) {s t : State} (h : Machine.execTransInfo sbt s = .next t) : SameMemory s t := by
  unfold Machine.execTransInfo at h
  split at h
  · cases h; exact refl s
  · cases h; exact transferOpen s sbt _

theorem execNegateAck (sbt : Bool) {s t : State} (h : Machine.execNegateAck sbt s = .next t) : SameMemory s t := by
  unfold Machine.execNegateAck at h
  split at h
  · cases h; exact transferIn s false
  · cases h; exact refl s

/-- Every instruction but the two that pump; a MSG_CMD is taken as the chip command it carries. -/
theorem exec {i : Instr} (hcmd : ∀ tid cmd, i ≠ .msgCmd tid cmd) (hpump : ∀ sbt, i ≠ .selXfer sbt ∧ i ≠ .selAtnXfer sbt)
    {s t : State} (h : Machine.exec i s = .next t) : SameMemory s t := by
  cases i with
  | msgCmd tid cmd => exact absurd rfl (hcmd tid cmd)
  | selXfer sbt => exact absurd rfl (hpump sbt).1
  | selAtnXfer sbt => exact absurd rfl (hpump sbt).2
  | msgShutdown => cases h; exact upd s
  | msgContIn => cases h; exact transferIn s false
  | msgContOut => cases h; exact transferOut s
  | msgContInMsg => cases h; exact transferIn s true
  | msgUnknown => cases h; exact refl s
  | reset => cases h; exact resetProc s true
  | abort => cases h; exact refl s
  | negateAck sbt => exact execNegateAck sbt h
  | selAtn => cases h; exact select s true
  | sel => cases h; exact select s false
  | transInfo sbt => exact execTransInfo sbt h
  | invalid => cases h; exact upd s

end State.SameMemory

/-- Settles O56: the two memories stand, and so do the addresses that decode. -/
theorem onlyPumpsChangeMemory : Obligations.OnlyPumpsChangeMemory := by
  intro i s t h hpump
  have hsame := State.SameMemory.exec (carried_ne_msgCmd i) hpump ((exec_carried i s).symm.trans h)
  have hmap : t.memMap = s.memMap := (Acts.of_exec h).memMap
  exact ⟨hsame.sram, State.memByte_congr hsame.mem hmap⟩

end Sys2Proof.Machine
end

section
/-! The accounts of a pump (44_dma_engines.md R263 to R277): what the number of moved bytes alone determines, and how
the accounts of two pumps in a row add up. -/

namespace Sys2Proof.Machine

/-! ### The state after a pump has moved bytes -/

/-- What holds the bytes a pump moves: the parts of the state that their number does not determine. -/
structure Cargo where
  target  : Target
  mem     : Memory
  scratch : Memory
  sram    : Memory
  draws   : Nat

namespace Controller

/-- A Commodore board. -/
abbrev commodore (c : Controller) : Prop := c.cfg.variant = .cbmDmac ∨ c.cfg.variant = .cbmSdmac

/-- The words that `n` moved bytes complete, where the board counts them (R266; 92_eei_decisions.md D25). -/
def wordsMoved (c : Controller) (n : Nat) : Nat :=
  if c.commodore ∧ c.cntr.getLsbD 7 = true then (c.acr.toNat % 2 + n) / 2 else 0

/-- The word counter falls to zero within `n` bytes. -/
abbrev wordsEnd (c : Controller) (n : Nat) : Prop := c.wtc ≠ 0 ∧ c.wtc.toNat ≤ c.wordsMoved n

/-- The DMA engine's registers once a pump in direction `d` has moved `n` bytes (R264, R266, R270, R271, R274). -/
def engineMoved (c : Controller) (d : Direction) (n : Nat) : Controller :=
  { c with
    acr := if c.commodore then c.acr + BitVec.ofNat 32 n else c.acr
    wtc := c.wtc - BitVec.ofNat 32 (min (c.wordsMoved n) c.wtc.toNat)
    istr := if c.wordsEnd n then c.istr ||| 0x20 else c.istr
    gaddr := if c.cfg.variant = .gvpS2 ∨ (c.cfg.variant = .gvpS1 ∧ d ≠ .toHost)
      then (c.gaddr + BitVec.ofNat 32 n) &&& c.cfg.addrMask else c.gaddr
    sramOff := if c.cfg.variant = .gvpS1 then (c.sramOff + n) % c.cfg.sramSize else c.sramOff }

/-- The controller once a pump has moved `n` bytes of the target at SCSI ID `i`, and left `g`. -/
def pumped (c : Controller) (i : Fin 8) (d : Direction) (n : Nat) (g : Cargo) : Controller :=
  { (c.engineMoved d n).setTc (BitVec.ofNat 24 (c.tc.toNat - n)) with
    targets := c.targets.set i.val (some g.target)
    scratch := g.scratch
    scratchOff := c.scratchOff + n
    sram := g.sram }

end Controller

/-- The machine then, but for the line. -/
def State.moved (s : State) (i : Fin 8) (d : Direction) (n : Nat) (g : Cargo) : State :=
  { s with mem := g.mem, draws := g.draws, ctl := s.ctl.pumped i d n g }

/-- The machine then: the fall of the word counter recomputes the line (R266). -/
def State.pumped (s : State) (i : Fin 8) (d : Direction) (n : Nat) (g : Cargo) : State :=
  if s.ctl.wordsEnd n then (s.moved i d n g).recompute else s.moved i d n g

/-! ### What stands, and what moves on -/

section
variable (s : State) (i : Fin 8) (d : Direction) (n : Nat) (g : Cargo)

@[simp] theorem State.pumped_mem : (s.pumped i d n g).mem = g.mem := by unfold State.pumped; split <;> rfl
@[simp] theorem State.pumped_memMap : (s.pumped i d n g).memMap = s.memMap := by unfold State.pumped; split <;> rfl
@[simp] theorem State.pumped_cfg : (s.pumped i d n g).ctl.cfg = s.ctl.cfg := by unfold State.pumped; split <;> rfl
@[simp] theorem State.pumped_curTarget : (s.pumped i d n g).ctl.curTarget = s.ctl.curTarget := by
  unfold State.pumped; split <;> rfl
@[simp] theorem State.pumped_targets :
    (s.pumped i d n g).ctl.targets = s.ctl.targets.set i.val (some g.target) := by unfold State.pumped; split <;> rfl
@[simp] theorem State.pumped_sram : (s.pumped i d n g).ctl.sram = g.sram := by unfold State.pumped; split <;> rfl
@[simp] theorem State.pumped_scratch : (s.pumped i d n g).ctl.scratch = g.scratch := by
  unfold State.pumped; split <;> rfl
@[simp] theorem State.pumped_scratchOff : (s.pumped i d n g).ctl.scratchOff = s.ctl.scratchOff + n := by
  unfold State.pumped; split <;> rfl
@[simp] theorem State.pumped_phase : (s.pumped i d n g).ctl.phase = s.ctl.phase := by
  unfold State.pumped; split <;> exact s.ctl.phase_setTc _

theorem Controller.pumped_tc_toNat (c : Controller) : (c.pumped i d n g).tc.toNat = c.tc.toNat - n := by
  have htc : (c.pumped i d n g).tc = BitVec.ofNat 24 (c.tc.toNat - n) := c.tc_setTc _
  rw [htc, BitVec.toNat_ofNat, Nat.mod_eq_of_lt (Nat.lt_of_le_of_lt (Nat.sub_le ..) c.tc.isLt)]

@[simp] theorem State.pumped_tc_toNat : (s.pumped i d n g).ctl.tc.toNat = s.ctl.tc.toNat - n := by
  unfold State.pumped; split <;> exact s.ctl.pumped_tc_toNat i d n g

end

/-! ### Several pumps in a row -/

namespace Controller

theorem wordsEnd_iff (c : Controller) (n : Nat) :
    c.wordsEnd n ↔ 0 < c.wtc.toNat ∧ c.wtc.toNat ≤ c.wordsMoved n := by
  rw [wordsEnd, Nat.pos_iff_ne_zero, ne_eq, ne_eq, ← BitVec.toNat_inj]
  rfl

section
variable (c : Controller) (i : Fin 8) (d : Direction) (n m : Nat) (g h : Cargo)

theorem pumped_wtc_toNat : (c.pumped i d n g).wtc.toNat = c.wtc.toNat - c.wordsMoved n := by
  have hwtc : (c.pumped i d n g).wtc = c.wtc - BitVec.ofNat 32 (min (c.wordsMoved n) c.wtc.toNat) := rfl
  rw [hwtc]
  bv_omega

theorem wordsMoved_add : c.wordsMoved (n + m) = c.wordsMoved n + (c.pumped i d n g).wordsMoved m := by
  by_cases hcounts : c.commodore ∧ c.cntr.getLsbD 7 = true
  · have hacr : (c.pumped i d n g).acr.toNat = (c.acr.toNat + n) % 2 ^ 32 := by
      have : (c.pumped i d n g).acr = c.acr + BitVec.ofNat 32 n := if_pos hcounts.1
      rw [this, BitVec.toNat_add, BitVec.toNat_ofNat, Nat.add_mod_mod]
    have hcounts' : (c.pumped i d n g).commodore ∧ (c.pumped i d n g).cntr.getLsbD 7 = true := hcounts
    simp only [wordsMoved, if_pos hcounts, if_pos hcounts', hacr]
    omega
  · have hcounts' : ¬((c.pumped i d n g).commodore ∧ (c.pumped i d n g).cntr.getLsbD 7 = true) := hcounts
    simp only [wordsMoved, if_neg hcounts, if_neg hcounts']

theorem wordsEnd_add : c.wordsEnd (n + m) ↔ c.wordsEnd n ∨ (c.pumped i d n g).wordsEnd m := by
  simp only [wordsEnd_iff, pumped_wtc_toNat, c.wordsMoved_add i d n m g]
  omega

/-- The word counter falls once. -/
theorem not_wordsEnd_of_wordsEnd {n : Nat} (hn : c.wordsEnd n) : ¬(c.pumped i d n g).wordsEnd m := by
  simp only [wordsEnd_iff, pumped_wtc_toNat] at hn ⊢
  omega

theorem setTc_setTc (v w : Count) : (c.setTc v).setTc w = c.setTc w := by
  simp only [setTc]
  rw [setReg_comm _ (j := TC_MSB) (by decide), setReg_comm _ (j := TC_MSB) (by decide), setReg_setReg,
    setReg_comm _ (j := TC_MID) (by decide), setReg_setReg, setReg_setReg]

/-- The address mask is one of R8's two, so masking is a remainder. -/
theorem toNat_and_addrMask (hlegal : paramsLegal c.cfg = true) :
    (∀ a : Word, (a &&& c.cfg.addrMask).toNat = a.toNat % 2 ^ 24) ∨
    (∀ a : Word, (a &&& c.cfg.addrMask).toNat = a.toNat % 2 ^ 25) := by
  have hmask : c.cfg.addrMask = 0x00FFFFFF ∨ c.cfg.addrMask = 0x01FFFFFF := by
    simp only [paramsLegal, Bool.and_eq_true, Bool.or_eq_true, beq_iff_eq] at hlegal
    obtain ⟨⟨-, hmask⟩, -⟩ := hlegal
    exact hmask
  refine hmask.imp (fun h a => ?_) fun h a => ?_
  · rw [h, BitVec.toNat_and]
    exact Nat.and_two_pow_sub_one_eq_mod a.toNat 24
  · rw [h, BitVec.toNat_and]
    exact Nat.and_two_pow_sub_one_eq_mod a.toNat 25

theorem masked_add_add (hlegal : paramsLegal c.cfg = true) (a x y : Word) :
    (((a + x) &&& c.cfg.addrMask) + y) &&& c.cfg.addrMask = (a + (x + y)) &&& c.cfg.addrMask := by
  apply BitVec.eq_of_toNat_eq
  obtain h | h := c.toNat_and_addrMask hlegal
  · simp only [h, BitVec.toNat_add]; omega
  · simp only [h, BitVec.toNat_add]; omega

theorem pumped_pumped (hlegal : paramsLegal c.cfg = true) :
    (c.pumped i d n g).pumped i d m h = c.pumped i d (n + m) h := by
  have hregs : ((c.pumped i d n g).pumped i d m h).regs = (c.pumped i d (n + m) h).regs := by
    have htc : (c.pumped i d n g).tc.toNat = c.tc.toNat - n := pumped_tc_toNat ..
    show ((c.pumped i d n g).setTc (BitVec.ofNat 24 ((c.pumped i d n g).tc.toNat - m))).regs = (c.setTc _).regs
    rw [htc, Nat.sub_sub, ← c.setTc_setTc (BitVec.ofNat 24 (c.tc.toNat - n))]
    rfl
  have hwtc : ((c.pumped i d n g).pumped i d m h).wtc = (c.pumped i d (n + m) h).wtc := by
    apply BitVec.eq_of_toNat_eq
    rw [pumped_wtc_toNat, pumped_wtc_toNat, pumped_wtc_toNat, c.wordsMoved_add i d n m g, Nat.sub_sub]
  have hsum : BitVec.ofNat 32 (n + m) = BitVec.ofNat 32 n + BitVec.ofNat 32 m := BitVec.ofNat_add ..
  have hacr : ((c.pumped i d n g).pumped i d m h).acr = (c.pumped i d (n + m) h).acr := by
    by_cases hc : c.commodore <;> simp [pumped, engineMoved, hc, hsum, BitVec.add_assoc]
  have hgaddr : ((c.pumped i d n g).pumped i d m h).gaddr = (c.pumped i d (n + m) h).gaddr := by
    by_cases hc : c.cfg.variant = .gvpS2 ∨ (c.cfg.variant = .gvpS1 ∧ d ≠ .toHost)
    · simp [pumped, engineMoved, hc, hsum, c.masked_add_add hlegal]
    · simp [pumped, engineMoved, hc]
  have hsram : ((c.pumped i d n g).pumped i d m h).sramOff = (c.pumped i d (n + m) h).sramOff := by
    by_cases hc : c.cfg.variant = .gvpS1 <;> simp [pumped, engineMoved, hc, Nat.add_assoc]
  have histr : ((c.pumped i d n g).pumped i d m h).istr = (c.pumped i d (n + m) h).istr := by
    show (if (c.pumped i d n g).wordsEnd m then (if c.wordsEnd n then c.istr ||| 0x20 else c.istr) ||| 0x20
      else if c.wordsEnd n then c.istr ||| 0x20 else c.istr) = if c.wordsEnd (n + m) then c.istr ||| 0x20 else c.istr
    by_cases hn : c.wordsEnd n
    · rw [if_neg (c.not_wordsEnd_of_wordsEnd i d m g hn), if_pos hn, if_pos ((c.wordsEnd_add i d n m g).mpr (.inl hn))]
    · simp only [c.wordsEnd_add i d n m g, hn, false_or, if_false]
  have htargets : ((c.pumped i d n g).pumped i d m h).targets = (c.pumped i d (n + m) h).targets := by
    simp [pumped]
  have hscratchOff : ((c.pumped i d n g).pumped i d m h).scratchOff = (c.pumped i d (n + m) h).scratchOff :=
    Nat.add_assoc ..
  generalize hd : (c.pumped i d n g).pumped i d m h = x at *
  calc x = { c.pumped i d (n + m) h with
        regs := x.regs, targets := x.targets, scratchOff := x.scratchOff, istr := x.istr, wtc := x.wtc, acr := x.acr
        gaddr := x.gaddr, sramOff := x.sramOff } := by rw [← hd]; rfl
    _ = c.pumped i d (n + m) h := by
      rw [hregs, htargets, hscratchOff, histr, hwtc, hacr, hgaddr, hsram]

theorem pumped_istr {n : Nat} (hn : ¬c.wordsEnd n) : (c.pumped i d n g).istr = c.istr := if_neg hn

/-- Unless the word counter falls, a pump changes nothing that the latches and the line depend on. -/
theorem foldLatch_pumped {n : Nat} (hn : ¬c.wordsEnd n) :
    c.foldLatch.pumped i d n g = (c.pumped i d n g).foldLatch := by
  have hfold : (c.pumped i d n g).foldedIstr = c.foldedIstr := by
    simp only [foldedIstr, c.pumped_istr i d g hn]
    rfl
  have hn' : ¬c.foldLatch.wordsEnd n := hn
  calc c.foldLatch.pumped i d n g
      = { (c.pumped i d n g).foldLatch with istr := (c.foldLatch.pumped i d n g).istr } := rfl
    _ = { (c.pumped i d n g).foldLatch with istr := (c.pumped i d n g).foldedIstr } := by
        rw [c.foldLatch.pumped_istr i d g hn', hfold]
        rfl
    _ = (c.pumped i d n g).foldLatch := rfl

theorem contributes_pumped {n : Nat} (hn : ¬c.wordsEnd n) : (c.pumped i d n g).contributes = c.contributes := by
  simp only [contributes, pred, c.pumped_istr i d g hn]
  rfl

end

end Controller

/-- Unless the word counter falls, the line may be recomputed before a pump or after it. -/
theorem State.moved_recompute {s : State} {i : Fin 8} {d : Direction} {n : Nat} {g : Cargo} (hn : ¬s.ctl.wordsEnd n) :
    s.recompute.moved i d n g = (s.moved i d n g).recompute := by
  have hline := s.ctl.foldLatch.contributes_pumped i d g (n := n) hn
  rw [s.ctl.foldLatch_pumped i d g hn] at hline
  simp only [State.recompute, State.moved, s.ctl.foldLatch_pumped i d g hn, List.any_cons, hline]

theorem State.pumped_pumped {s : State} (hlegal : paramsLegal s.ctl.cfg = true) (i : Fin 8) (d : Direction) (n m : Nat)
    (g h : Cargo) : (s.pumped i d n g).pumped i d m h = s.pumped i d (n + m) h := by
  have hmoved : (s.moved i d n g).moved i d m h = s.moved i d (n + m) h := by
    simp only [State.moved, s.ctl.pumped_pumped i d n m g h hlegal]
  have hend := s.ctl.wordsEnd_add i d n m g
  by_cases hn : s.ctl.wordsEnd n
  · have hm : ¬(s.moved i d n g).ctl.wordsEnd m := s.ctl.not_wordsEnd_of_wordsEnd i d m g hn
    have hm' : ¬(s.moved i d n g).recompute.ctl.wordsEnd m := hm
    rw [State.pumped, State.pumped, if_pos hn, if_neg hm', State.moved_recompute hm, hmoved, State.pumped,
      if_pos (hend.mpr (.inl hn))]
  · have hiff : (s.moved i d n g).ctl.wordsEnd m ↔ s.ctl.wordsEnd (n + m) := (hend.trans (or_iff_right hn)).symm
    simp only [State.pumped, if_neg hn, hiff, hmoved]

end Sys2Proof.Machine
end

section
/-! One byte of a pump in the accounts (44_dma_engines.md R263, R264, R266, R270, R271): the engine's registers, the
mirror and the counter. -/

namespace Sys2Proof.Machine

/-! ### The engine's registers -/

namespace Controller

theorem wordsMoved_of_not_commodore {c : Controller} (h : ¬c.commodore) (n : Nat) : c.wordsMoved n = 0 :=
  if_neg fun hc => h hc.1

theorem not_wordsEnd_of_not_commodore {c : Controller} (h : ¬c.commodore) (n : Nat) : ¬c.wordsEnd n := by
  rw [wordsEnd_iff, wordsMoved_of_not_commodore h]
  omega

theorem engineMoved_commodore {c : Controller} (h : c.commodore) (d : Direction) (n : Nat) :
    c.engineMoved d n = { c with
      acr := c.acr + BitVec.ofNat 32 n, wtc := c.wtc - BitVec.ofNat 32 (min (c.wordsMoved n) c.wtc.toNat)
      istr := if c.wordsEnd n then c.istr ||| 0x20 else c.istr } := by
  have h1 : c.cfg.variant ≠ .gvpS1 := by rintro e; simp [commodore, e] at h
  have h2 : c.cfg.variant ≠ .gvpS2 := by rintro e; simp [commodore, e] at h
  simp [engineMoved, h, h1, h2]

/-- A byte completes a word where the address behind it is even (R266). -/
theorem wordsMoved_one {c : Controller} (h : c.commodore) :
    c.wordsMoved 1 = if c.cntr.getLsbD 7 = true ∧ (c.acr + 1).toNat % 2 = 0 then 1 else 0 := by
  have hodd : (c.acr + 1).toNat % 2 = 0 ↔ c.acr.toNat % 2 = 1 := by bv_omega
  simp only [wordsMoved, h, true_and, hodd]
  by_cases ht : c.cntr.getLsbD 7 = true
  · simp only [ht, true_and, if_true]
    split <;> omega
  · simp only [ht, false_and, if_false, Bool.false_eq_true]

/-- The word counter will count the byte about to move. -/
abbrev nextCounts (c : Controller) : Prop := c.cntr.getLsbD 7 = true ∧ (c.acr + 1).toNat % 2 = 0 ∧ c.wtc ≠ 0

section
variable {c : Controller} (hc : c.commodore)
include hc

theorem wordsEnd_one : c.wordsEnd 1 ↔ c.nextCounts ∧ c.wtc = 1 := by
  rw [wordsEnd_iff, wordsMoved_one hc, nextCounts, ← and_assoc]
  by_cases hword : c.cntr.getLsbD 7 = true ∧ (c.acr + 1).toNat % 2 = 0
  · rw [if_pos hword, and_iff_right hword]
    bv_omega
  · rw [if_neg hword]
    exact iff_of_false (by omega) fun h => hword h.1.1

/-- The counter stands at zero, or no word is complete: the address alone moves on. -/
theorem engineMoved_one_uncounted (hword : ¬c.nextCounts) (d : Direction) :
    c.engineMoved d 1 = { c with acr := c.acr + 1 } := by
  have hzero : min (c.wordsMoved 1) c.wtc.toNat = 0 := by
    rw [wordsMoved_one hc]
    split
    case isTrue h =>
      have hwtc : c.wtc = 0 := by by_contra hne; exact hword ⟨h.1, h.2, hne⟩
      rw [hwtc]; rfl
    case isFalse => exact Nat.zero_min _
  have hend : ¬c.wordsEnd 1 := fun h => hword ((wordsEnd_one hc).mp h).1
  rw [engineMoved_commodore hc, hzero, if_neg hend, BitVec.sub_zero]
  rfl

theorem engineMoved_one_counted (hword : c.nextCounts) (d : Direction) :
    c.engineMoved d 1 = { c with
      acr := c.acr + 1, wtc := c.wtc - 1, istr := if c.wtc = 1 then c.istr ||| 0x20 else c.istr } := by
  obtain ⟨htcen, heven, hwtc⟩ := hword
  have hone : min (c.wordsMoved 1) c.wtc.toNat = 1 := by
    rw [wordsMoved_one hc, if_pos ⟨htcen, heven⟩]
    have hwtc : c.wtc ≠ 0 := hwtc
    bv_omega
  have hend : c.wordsEnd 1 ↔ c.wtc = 1 := (wordsEnd_one hc).trans (and_iff_right ⟨htcen, heven, hwtc⟩)
  simp only [engineMoved_commodore hc, hone, hend]
  rfl

end

theorem engineMoved_gvp {c : Controller} (h : ¬c.commodore) (d : Direction) (n : Nat) :
    c.engineMoved d n = { c with
      gaddr := if c.cfg.variant = .gvpS2 ∨ (c.cfg.variant = .gvpS1 ∧ d ≠ .toHost)
        then (c.gaddr + BitVec.ofNat 32 n) &&& c.cfg.addrMask else c.gaddr
      sramOff := if c.cfg.variant = .gvpS1 then (c.sramOff + n) % c.cfg.sramSize else c.sramOff } := by
  simp [engineMoved, h, wordsMoved_of_not_commodore h, not_wordsEnd_of_not_commodore h]

end Controller

theorem State.pumpAdvance_commodore {s : State} (h : s.ctl.commodore) (inbound : Bool) :
    s.pumpAdvance inbound = (s.upd fun c => { c with acr := c.acr + 1 }).wtcStep := by
  unfold State.pumpAdvance
  obtain h | h := h <;> rw [h]

/-- The engine's registers move on by one byte, and the fall of the word counter recomputes the line. -/
theorem State.pumpAdvance_eq {s : State} (hboard : s.ctl.cfg.variant ≠ .none) (d : Direction) :
    s.pumpAdvance d.isIn =
      if s.ctl.wordsEnd 1 then State.recompute { s with ctl := s.ctl.engineMoved d 1 }
      else { s with ctl := s.ctl.engineMoved d 1 } := by
  by_cases hc : s.ctl.commodore
  case pos =>
    have hend := Controller.wordsEnd_one hc
    rw [State.pumpAdvance_commodore hc]
    by_cases hword : s.ctl.nextCounts
    · rw [Controller.engineMoved_one_counted hc hword]
      refine (State.wtcStep_counted (s := s.upd fun c => { c with acr := c.acr + 1 }) hword).trans ?_
      by_cases hlast : s.ctl.wtc = 1
      · rw [if_pos (hend.mpr ⟨hword, hlast⟩), State.upd_ctl, if_pos hlast]
        simp only [hlast, if_true, sub_self]
        rfl
      · rw [if_neg fun h => hlast (hend.mp h).2, State.upd_ctl, if_neg hlast, if_neg hlast]
        rfl
    · rw [Controller.engineMoved_one_uncounted hc hword, if_neg fun h => hword (hend.mp h).1]
      exact State.wtcStep_uncounted hword
  case neg =>
    rw [if_neg (Controller.not_wordsEnd_of_not_commodore hc 1), Controller.engineMoved_gvp hc]
    unfold State.pumpAdvance
    cases hv : s.ctl.cfg.variant with
    | cbmDmac => exact absurd (.inl hv) hc
    | cbmSdmac => exact absurd (.inr hv) hc
    | none => exact absurd hv hboard
    | gvpS1 => cases d <;> simp [Direction.isIn, Direction.toInt, State.upd]
    | gvpS2 => simp [State.upd]

/-! ### The bookkeeping after a byte (R263) -/

theorem Controller.decTc_fst_eq (c : Controller) : c.decTc.1 = c.setTc (BitVec.ofNat 24 (c.tc.toNat - 1)) := by
  have hdown : (if c.tc = 0 then 0 else c.tc - 1) = BitVec.ofNat 24 (c.tc.toNat - 1) := by
    split
    case isTrue h => rw [h]; rfl
    case isFalse h => bv_omega
  rw [Controller.decTc_fst, hdown]

theorem State.recompute_upd_decTc (s : State) :
    (s.recompute.upd fun c => c.decTc.1) = (s.upd fun c => c.decTc.1).recompute := by
  simp only [State.upd, Controller.decTc_fst_eq]
  rfl

/-- The machine when a byte has reached the target or the board's memory and is not counted yet. -/
def State.carrying (s : State) (g : Cargo) : State :=
  { s with mem := g.mem, draws := g.draws, ctl := { s.ctl.setTarget g.target with sram := g.sram } }

/-- The mirror, the engine's registers and the counter: one byte of a pump is accounted for. -/
theorem State.pumpCount_carrying {s : State} {i : Fin 8} (hi : s.ctl.curTarget = some i)
    (hboard : s.ctl.cfg.variant ≠ .none) (d : Direction) (g : Cargo) (b : Byte) (ended : Bool) :
    (s.carrying g).pumpCount d.isIn b ended =
      (s.pumped i d 1 { g with scratch := (s.ctl.mirror b).scratch }, ended || decide (s.ctl.tc.toNat ≤ 1)) := by
  let v : State := (s.carrying g).upd fun c => c.mirror b
  have hctl : v.ctl = { s.ctl with
      targets := s.ctl.targets.set i.val (some g.target), sram := g.sram
      scratch := (s.ctl.mirror b).scratch, scratchOff := s.ctl.scratchOff + 1 } := by
    simp only [v, State.carrying, State.upd_ctl, Controller.setTarget_eq _ hi]
    rfl
  have hend : v.ctl.wordsEnd 1 ↔ s.ctl.wordsEnd 1 := by rw [hctl]; rfl
  have hmoved : (State.upd { v with ctl := v.ctl.engineMoved d 1 } fun c => c.decTc.1) =
      s.moved i d 1 { g with scratch := (s.ctl.mirror b).scratch } := by
    simp only [State.upd, Controller.decTc_fst_eq, hctl]
    rfl
  have hadvance := State.pumpAdvance_eq (s := v) (by rw [hctl]; exact hboard) d
  have htc : (v.pumpAdvance d.isIn).ctl.tc = s.ctl.tc := by
    have hv : v.ctl.tc = s.ctl.tc := by rw [hctl]; rfl
    rw [← hv, hadvance]
    split <;> rfl
  refine Prod.ext ?_ (congrArg (ended || ·) ?_)
  · show ((v.pumpAdvance d.isIn).upd fun c => c.decTc.1) = _
    rw [hadvance, State.pumped]
    by_cases h : s.ctl.wordsEnd 1
    · rw [if_pos (hend.mpr h), if_pos h, State.recompute_upd_decTc, hmoved]
    · rw [if_neg (mt hend.mp h), if_neg h, hmoved]
  · show (v.pumpAdvance d.isIn).ctl.decTc.2 = _
    rw [Bool.eq_iff_iff, Controller.decTc_snd_iff, htc, decide_eq_true_iff]

end Sys2Proof.Machine
end

section
/-! The places a pump reaches (44_dma_engines.md R264, R270, R274): host memory from ACR or from the masked GADDR, the
Series I buffer round its size. -/

namespace Sys2Proof.Machine

/-- A place a pump reads or writes: a host address, or an index of the Series I buffer. -/
abbrev Place := Word ⊕ Nat

/-- The place of the `k`-th byte of a pump that starts at `c`, on a board that has a pump. -/
def Controller.place (c : Controller) (k : Nat) : Place :=
  match c.cfg.variant with
  | .cbmDmac | .cbmSdmac => .inl (c.acr + BitVec.ofNat 32 k)
  | .gvpS2 => .inl ((c.gaddr + BitVec.ofNat 32 k) &&& c.cfg.addrMask)
  | .gvpS1 | .none => .inr ((c.sramOff + k) % c.cfg.sramSize)

/-- The byte at a place, none where the model fixes no value. -/
def State.byteAt (s : State) (p : Place) : Option Byte :=
  match p with
  | .inl a => s.memByte a
  | .inr j => Memory.find s.ctl.sram j

/-- A store at a place is kept (log 12). -/
def State.keeps (s : State) (p : Place) : Bool :=
  match p with
  | .inl a => s.decodes a
  | .inr _ => true

/-! ### The statements' words for a place -/

section
variable (s : State) {c : Controller} (hboard : c.cfg.variant ≠ .none) (k : Nat)
include hboard

theorem State.placeByte_eq : s.placeByte c k = s.byteAt (c.place k) := by
  unfold State.placeByte Controller.place
  cases hv : c.cfg.variant with
  | none => exact absurd hv hboard
  | _ => rfl

theorem State.placeKeeps_eq : s.placeKeeps c k = s.keeps (c.place k) := by
  unfold State.placeKeeps Controller.place
  cases hv : c.cfg.variant with
  | none => exact absurd hv hboard
  | _ => rfl

theorem Controller.pumpAddress_of_place {a : Word} (h : c.place k = .inl a) : c.pumpAddress k = some a := by
  unfold Controller.place at h
  unfold Controller.pumpAddress
  cases hv : c.cfg.variant with
  | none => exact absurd hv hboard
  | gvpS1 => simp [hv] at h
  | _ => simpa [hv] using h

theorem Controller.buffer_of_place {j : Nat} (h : c.place k = .inr j) :
    c.cfg.variant = .gvpS1 ∧ (c.sramOff + k) % c.cfg.sramSize = j := by
  unfold Controller.place at h
  cases hv : c.cfg.variant with
  | none => exact absurd hv hboard
  | gvpS1 => exact ⟨rfl, by simpa [hv] using h⟩
  | _ => simp [hv] at h

end

/-! ### Several places (R264, R270, R274) -/

/-- Moving on by `n` bytes moves every place on by as many. -/
theorem Controller.place_pumped {c : Controller} (hlegal : paramsLegal c.cfg = true) (hboard : c.cfg.variant ≠ .none)
    (i : Fin 8) (d : Direction) (n k : Nat) (g : Cargo) : (c.pumped i d n g).place k = c.place (n + k) := by
  have hsum : BitVec.ofNat 32 (n + k) = BitVec.ofNat 32 n + BitVec.ofNat 32 k := BitVec.ofNat_add ..
  have hcfg : (c.pumped i d n g).cfg = c.cfg := rfl
  unfold Controller.place
  rw [hcfg]
  cases hv : c.cfg.variant with
  | gvpS1 => simp [Controller.pumped, Controller.engineMoved, hv, Nat.add_assoc]
  | gvpS2 => simp [Controller.pumped, Controller.engineMoved, hv, hsum, c.masked_add_add hlegal]
  | none => exact absurd hv hboard
  | _ => simp [Controller.pumped, Controller.engineMoved, Controller.commodore, hv, hsum, BitVec.add_assoc]

theorem State.place_pumped {s : State} (hlegal : paramsLegal s.ctl.cfg = true) (hboard : s.ctl.cfg.variant ≠ .none)
    (i : Fin 8) (d : Direction) (n k : Nat) (g : Cargo) : (s.pumped i d n g).ctl.place k = s.ctl.place (n + k) := by
  rw [← s.ctl.place_pumped hlegal hboard i d n k g]
  unfold State.pumped
  split <;> rfl

/-- Two bytes of one pump share a place only where the Series I buffer wraps between them. -/
theorem Controller.place_ne {c : Controller} (hok : c.ok) (hboard : c.cfg.variant ≠ .none) {j k : Nat} (hkj : k < j)
    (hj : j < 2 ^ 24) (hlast : c.cfg.variant = .gvpS1 → j < k + c.cfg.sramSize) : c.place j ≠ c.place k := by
  have hlegal := hok.1
  unfold Controller.place
  cases hv : c.cfg.variant with
  | gvpS2 =>
    refine fun e => ?_
    have e : ((c.gaddr + BitVec.ofNat 32 j) &&& c.cfg.addrMask).toNat =
        ((c.gaddr + BitVec.ofNat 32 k) &&& c.cfg.addrMask).toNat := congrArg BitVec.toNat (Sum.inl.inj e)
    obtain h | h := c.toNat_and_addrMask hlegal
    · simp only [h, BitVec.toNat_add, BitVec.toNat_ofNat] at e; omega
    · simp only [h, BitVec.toNat_add, BitVec.toNat_ofNat] at e; omega
  | gvpS1 =>
    refine fun e => ?_
    have hzero := Nat.sub_mod_eq_zero_of_mod_eq (Sum.inr.inj e)
    have hwrap := hlast hv
    rw [Nat.add_sub_add_left, Nat.mod_eq_of_lt (by omega)] at hzero
    omega
  | none => exact absurd hv hboard
  | _ =>
    refine fun e => ?_
    have e : c.acr + BitVec.ofNat 32 j = c.acr + BitVec.ofNat 32 k := Sum.inl.inj e
    bv_omega

/-! ### One byte read or stored -/

/-- The next place, by the registers themselves: `gaddr` is kept masked, `sramOff` below the size (10_state.md R43). -/
theorem Controller.place_zero {c : Controller} (hok : c.ok) :
    c.place 0 = match c.cfg.variant with
      | .cbmDmac | .cbmSdmac => .inl c.acr
      | .gvpS2 => .inl c.gaddr
      | .gvpS1 | .none => .inr c.sramOff := by
  obtain ⟨-, -, -, ⟨hgaddr, hsram, -⟩, -⟩ := hok
  unfold Controller.place
  cases c.cfg.variant <;> simp [hgaddr, Nat.mod_eq_of_lt hsram]

theorem State.pumpFetch_eq {s : State} (hok : s.ctl.ok) (hboard : s.ctl.cfg.variant ≠ .none) :
    s.pumpFetch = s.orDraw (s.byteAt (s.ctl.place 0)) := by
  rw [Controller.place_zero hok]
  unfold State.pumpFetch
  cases hv : s.ctl.cfg.variant with
  | none => exact absurd hv hboard
  | _ => rfl

theorem State.byteAt_memWrite (s : State) (a : Word) (b : Byte) (p : Place) :
    (s.memWrite a b).byteAt p = if p = .inl a ∧ s.keeps p = true then some b else s.byteAt p := by
  cases p with
  | inr j =>
    have hsram : (s.memWrite a b).byteAt (.inr j) = s.byteAt (.inr j) := by
      simp only [State.byteAt, State.memWrite_ctl]
    simp [hsram]
  | inl x =>
    by_cases hx : x = a
    · subst hx
      by_cases hd : s.decodes x = true
      · simp only [State.byteAt, State.keeps, s.memByte_memWrite_same hd, hd, and_self, if_true]
      · have hdropped : s.memWrite x b = s := if_neg hd
        simp only [hdropped, State.keeps, hd, and_false, if_false, Bool.false_eq_true]
    · have hne : (.inl x : Place) ≠ .inl a := fun e => hx (Sum.inl.inj e)
      simp only [State.byteAt, s.memByte_memWrite_ne (Ne.symm hx), hne, false_and, if_false]

theorem State.byteAt_pumpStore {s : State} (hok : s.ctl.ok) (hboard : s.ctl.cfg.variant ≠ .none) (b : Byte)
    (p : Place) :
    (s.pumpStore b).byteAt p = if p = s.ctl.place 0 ∧ s.keeps p = true then some b else s.byteAt p := by
  rw [Controller.place_zero hok]
  unfold State.pumpStore
  cases hv : s.ctl.cfg.variant with
  | none => exact absurd hv hboard
  | gvpS1 =>
    cases p with
    | inl a => exact (State.memByte_congr rfl rfl a).trans (if_neg (by simp)).symm
    | inr j => simp [State.byteAt, State.keeps, Memory.find_put, eq_comm]
  | _ => exact s.byteAt_memWrite _ b p

end Sys2Proof.Machine
end

section
/-! One byte of a pump (44_dma_engines.md R263): what it is and where it goes. -/

namespace Sys2Proof.Machine

/-- A pump from `s` next moves byte `b` for target `t`, and `g` holds the bytes then (20_memory.md R90, log 9). -/
structure State.MovesByte (s : State) (t : Target) (b : Byte) (g : Cargo) : Prop where
  given : ∀ x, s.movedByte t 0 = some x → b = x
  scratch : g.scratch = (s.ctl.mirror b).scratch
  inbound : t.direction = .toHost → g.mem = (s.pumpStore b).mem ∧ g.sram = (s.pumpStore b).ctl.sram ∧
    g.target = { t with
      offset := t.offset + 1
      messageReplies := if s.ctl.phase = 0x50 then t.messageReplies.drop 1 else t.messageReplies }
  outbound : t.direction ≠ .toHost → g.mem = s.mem ∧ g.sram = s.ctl.sram ∧ g.target = (t.send b).1

/-- A pump can run from `s` (R263): target `t` stands at the current SCSI ID `i` and has a direction, the board has a
pump. -/
structure State.Ready (s : State) (i : Fin 8) (t : Target) : Prop where
  current : s.Current i t
  direction : t.direction ≠ .nothing
  board : s.ctl.cfg.variant ≠ .none
  ok : s.ctl.ok

/-! ### The byte that moves -/

/-- Only message-in phase uses up the prepared message bytes (log 9). -/
theorem State.Gives.messages {s : State} {t : Target} {p b : Byte} {n : Nat} {ms : List Byte} (h : s.Gives t p b n ms) :
    ms = if p = 0x50 then t.messageReplies.drop 1 else t.messageReplies := by
  obtain ⟨hstatus, hmessage, hdata⟩ := h
  split
  case isTrue hp =>
    obtain ⟨hcons, hnil⟩ := hmessage hp
    cases hms : t.messageReplies with
    | nil => exact hnil hms
    | cons x xs => exact (hcons x xs hms).2.2
  case isFalse hp =>
    by_cases hs : p = 0x46 ∨ p = 0x47
    · exact (hstatus hs).2.2
    · exact (hdata (fun e => hs (.inl e)) (fun e => hs (.inr e)) hp).1

/-- What the target gives inbound is the byte a pump moves. -/
theorem State.Gives.moved {s : State} {t : Target} {b : Byte} {n : Nat} {ms : List Byte}
    (h : s.Gives t s.ctl.phase b n ms) (hin : t.direction = .toHost) {x : Byte} (hx : s.movedByte t 0 = some x) : b = x := by
  obtain ⟨hstatus, hmessage, hdata⟩ := h
  rw [State.movedByte, if_pos hin] at hx
  split at hx
  case isTrue hs => exact (hstatus hs).1.trans (Option.some.inj hx)
  case isFalse hs =>
    split at hx
    case isTrue hp =>
      cases hms : t.messageReplies with
      | nil => simp [hms] at hx
      | cons y ys =>
        have hyx : y = x := by simpa [hms] using hx
        exact ((hmessage hp).1 y ys hms).1.trans hyx
    case isFalse hp => exact ((hdata (fun e => hs (.inl e)) (fun e => hs (.inr e)) hp).2 x hx).1

/-- Nothing is stored: the target alone has changed. -/
theorem State.carrying_unstored (s : State) (t : Target) (n : Nat) (m : Memory) :
    s.carrying { target := t, mem := s.mem, scratch := m, sram := s.ctl.sram, draws := n } =
      ({ s with draws := n } : State).upd fun c => c.setTarget t := by
  rw [State.carrying, ← s.ctl.setTarget_sram t]
  rfl

/-- A store goes to the same place before the target has changed and after it. -/
theorem State.pumpStore_carrying (s : State) (t : Target) (n : Nat) (m : Memory) (b : Byte) :
    (({ s with draws := n } : State).upd fun c => c.setTarget t).pumpStore b = s.carrying
      { target := t, mem := (s.pumpStore b).mem, scratch := m, sram := (s.pumpStore b).ctl.sram, draws := n } := by
  have hwrite (a : Word) : (({ s with draws := n } : State).upd fun c => c.setTarget t).memWrite a b = s.carrying
      { target := t, mem := (s.memWrite a b).mem, scratch := m, sram := (s.memWrite a b).ctl.sram, draws := n } := by
    have hnone := s.carrying_unstored t n m
    unfold State.memWrite
    by_cases hd : s.decodes a = true
    · have hd' : (({ s with draws := n } : State).upd fun c => c.setTarget t).decodes a = true := hd
      rw [if_pos hd, if_pos hd', ← hnone]
      rfl
    · have hd' : ¬(({ s with draws := n } : State).upd fun c => c.setTarget t).decodes a = true := hd
      rw [if_neg hd, if_neg hd', hnone]
  unfold State.pumpStore
  simp only [State.upd_ctl, Controller.setTarget_cfg, Controller.setTarget_acr, Controller.setTarget_gaddr]
  cases hv : s.ctl.cfg.variant with
  | gvpS1 => simp [State.upd, State.carrying]
  | none => exact (s.carrying_unstored t n m).symm
  | _ => exact hwrite _

/-- One turn of the loop. -/
theorem State.Ready.pumpByte {s : State} {i : Fin 8} {t : Target} (h : s.Ready i t) :
    ∃ b g, s.MovesByte t b g ∧ s.pumpByte t = (s.pumped i t.direction 1 g, decide (s.ctl.onLastByte t)) := by
  have hended : decide (s.ctl.onLastByte t) = (decide (t.dataLength ≤ t.offset + 1) || decide (s.ctl.tc.toNat ≤ 1)) :=
    Bool.decide_or ..
  have hcount (g : Cargo) (b : Byte) (ended : Bool) :=
    State.pumpCount_carrying (s := s) h.current.curTarget h.board t.direction g b ended
  by_cases hin : t.direction.isIn = true
  case pos =>
    have hdir := (Direction.isIn_iff t.direction).mp hin
    obtain ⟨b, n, ms, hgives, hrecv⟩ := s.recvByte_gives t s.ctl.phase
    have hms := hgives.messages
    refine ⟨b, { target := { t with offset := t.offset + 1, messageReplies := ms }, mem := (s.pumpStore b).mem
                 scratch := (s.ctl.mirror b).scratch, sram := (s.pumpStore b).ctl.sram, draws := n },
      ⟨fun x hx => hgives.moved hdir hx, rfl, fun _ => ⟨rfl, rfl, by rw [hms]⟩, fun hne => absurd hdir hne⟩, ?_⟩
    have hturn : s.pumpByte t = ((({ s with draws := n } : State).upd fun c =>
        c.setTarget { t with offset := t.offset + 1, messageReplies := ms }).pumpStore b).pumpCount t.direction.isIn b
          (decide (t.dataLength ≤ t.offset + 1)) := by
      simp only [State.pumpByte, hin, if_true, State.recv, hrecv]
    rw [hturn, State.pumpStore_carrying s _ n [] b, hcount, hended]
  case neg =>
    have hout : t.direction ≠ .toHost := fun e => hin ((Direction.isIn_iff t.direction).mpr e)
    obtain ⟨b, n, hgiven, hdraw⟩ := s.exists_orDraw (s.byteAt (s.ctl.place 0))
    refine ⟨b, { target := (t.send b).1, mem := s.mem, scratch := (s.ctl.mirror b).scratch
                 sram := s.ctl.sram, draws := n },
      ⟨fun x hx => (hgiven x ?_).1, rfl, fun e => absurd e hout, fun _ => ⟨rfl, rfl, rfl⟩⟩, ?_⟩
    · rwa [State.movedByte, if_neg hout, State.placeByte_eq s h.board] at hx
    have hturn : s.pumpByte t = (s.carrying
        { target := (t.send b).1, mem := s.mem, scratch := [], sram := s.ctl.sram, draws := n }).pumpCount
          t.direction.isIn b (decide (t.dataLength ≤ t.offset + 1)) := by
      rw [Bool.not_eq_true] at hin
      simp only [State.pumpByte, hin, Bool.false_eq_true, if_false, State.pumpFetch_eq h.ok h.board, hdraw,
        Target.send_snd, State.carrying_unstored]
    rw [hturn, hcount, hended]

end Sys2Proof.Machine
end

section
/-! A whole pump (44_dma_engines.md R263): how many bytes it moves, which they are and where they go. -/

namespace Sys2Proof.Machine

/-! ### The loop -/

/-- A pump from `s` moves the bytes of the list, one at least, for the target at SCSI ID `i`, which is `t` at first; `g`
holds the bytes at the end. -/
inductive State.Moves (i : Fin 8) : State → Target → List Byte → Cargo → Prop
  | last {s : State} {t : Target} {b : Byte} {g : Cargo} (ready : s.Ready i t) (hb : s.MovesByte t b g) :
      Moves i s t [b] g
  | more {s : State} {t : Target} {b : Byte} {bs : List Byte} {f g : Cargo} (ready : s.Ready i t)
      (hb : s.MovesByte t b f) (rest : Moves i (s.pumped i t.direction 1 f) f.target bs g) : Moves i s t (b :: bs) g

section
variable {s : State} {i : Fin 8} {t : Target} {b : Byte} {g : Cargo}

theorem State.MovesByte.direction (h : s.MovesByte t b g) : g.target.direction = t.direction := by
  by_cases hin : t.direction = .toHost
  · rw [(h.inbound hin).2.2]
  · rw [(h.outbound hin).2.2, Target.send_direction]

theorem State.MovesByte.offset (h : s.MovesByte t b g) : g.target.offset = t.offset + 1 := by
  by_cases hin : t.direction = .toHost
  · rw [(h.inbound hin).2.2]
  · rw [(h.outbound hin).2.2, Target.send_offset]

theorem State.MovesByte.dataLength (h : s.MovesByte t b g) : g.target.dataLength = t.dataLength := by
  by_cases hin : t.direction = .toHost
  · rw [(h.inbound hin).2.2]
  · rw [(h.outbound hin).2.2, Target.send_dataLength]

/-- A pump can go on after a byte. -/
theorem State.Ready.next (h : s.Ready i t) (hb : s.MovesByte t b g) (hacts : Acts s (s.pumped i t.direction 1 g)) :
    (s.pumped i t.direction 1 g).Ready i g.target where
  current := ⟨by simpa using h.current.curTarget, by simp⟩
  direction := by rw [hb.direction]; exact h.direction
  board := by simpa using h.board
  ok := hacts.ok h.ok

/-- The rest of a pump goes on with the accounts of its first byte. -/
theorem State.Ready.pumped_rest (h : s.Ready i t) (hb : s.MovesByte t b g) (n : Nat) (f : Cargo) :
    (s.pumped i t.direction 1 g).pumped i g.target.direction n f = s.pumped i t.direction (n + 1) f := by
  rw [hb.direction, State.pumped_pumped h.ok.1, Nat.add_comm]

theorem pumpBytes_next (hb : s.MovesByte t b g) (hlast : ¬s.ctl.onLastByte t) :
    pumpBytes (s.pumped i t.direction 1 g).ctl g.target + 1 = pumpBytes s.ctl t := by
  unfold pumpBytes
  rw [State.pumped_tc_toNat, hb.offset, hb.dataLength]
  omega

end

/-- The loop ends by itself once the bytes it must move have moved. -/
theorem State.Ready.pumpLoop {s : State} {i : Fin 8} {t : Target} (h : s.Ready i t) {k : Nat}
    (hk : pumpBytes s.ctl t ≤ k) :
    ∃ bs g, s.Moves i t bs g ∧ bs.length = pumpBytes s.ctl t ∧
      State.pumpLoop k s = s.pumped i t.direction bs.length g := by
  induction k generalizing s t with
  | zero => exact absurd hk (by unfold pumpBytes; omega)
  | succ k ih =>
    obtain ⟨b, f, hb, hturn⟩ := h.pumpByte
    have hacts : Acts s (s.pumped i t.direction 1 f) := by
      have := Acts.pumpByte s t h.current.target
      rwa [hturn] at this
    rw [State.pumpLoop, h.current.target]
    simp only [hturn]
    by_cases hlast : s.ctl.onLastByte t
    · exact ⟨[b], f, .last h hb, ((onLastByte_iff ..).mp hlast).symm, if_pos (decide_eq_true hlast)⟩
    · have hcount := pumpBytes_next (i := i) hb hlast
      obtain ⟨bs, g, hmoves, hlen, hloop⟩ := ih (h.next hb hacts) (by omega)
      refine ⟨b :: bs, g, .more h hb hmoves, by rw [List.length_cons, hlen, hcount], ?_⟩
      rw [if_neg (by simpa using hlast), hloop, h.pumped_rest hb, List.length_cons]

/-- `Pump()` (R263), once it has started. -/
theorem State.Ready.pump {s : State} {i : Fin 8} {t : Target} (h : s.Ready i t)
    (hdir : s.ctl.cfg.variant = .gvpS2 → s.ctl.gcntr.getLsbD 4 = t.direction.isOut) :
    ∃ bs g, s.Moves i t bs g ∧ bs.length = pumpBytes s.ctl t ∧ s.pump = (s.pumped i t.direction bs.length g, true) := by
  have hstarts : ¬(s.ctl.cfg.variant = .gvpS2 ∧ s.ctl.dirMismatch t.direction = true) := fun ⟨hv, hne⟩ => by
    rw [Controller.dirMismatch_gvpS2 hv, hdir hv] at hne
    simp at hne
  obtain ⟨bs, g, hmoves, hlen, hloop⟩ := h.pumpLoop (k := s.ctl.pumpTurns) (by
    unfold pumpBytes Controller.pumpTurns; omega)
  refine ⟨bs, g, hmoves, hlen, ?_⟩
  simp only [State.pump, h.current.target, if_neg h.direction, if_neg h.board, if_neg hstarts, hloop]

end Sys2Proof.Machine
end

section
/-! What a pump leaves of the bytes it moves (44_dma_engines.md R263, R264, R270, R274; 10_state.md R28; 20_memory.md
R90). -/

namespace Sys2Proof.Machine

theorem State.byteAt_congr {s u : State} (hmem : u.mem = s.mem) (hmap : u.memMap = s.memMap)
    (hsram : u.ctl.sram = s.ctl.sram) (p : Place) : u.byteAt p = s.byteAt p := by
  cases p with
  | inl a => exact State.memByte_congr hmem hmap a
  | inr j => simp only [State.byteAt, hsram]

theorem Controller.find_mirror (c : Controller) (b : Byte) (j : Nat) :
    Memory.find (c.mirror b).scratch j =
      if j = c.scratchOff ∧ j < c.cfg.scratchSize then some b else Memory.find c.scratch j := by
  have hscratch : (c.mirror b).scratch =
      if c.scratchOff < c.cfg.scratchSize then Memory.put c.scratch c.scratchOff b else c.scratch := rfl
  rw [hscratch]
  by_cases hj : j = c.scratchOff
  · subst hj
    by_cases hfits : c.scratchOff < c.cfg.scratchSize
    · rw [if_pos hfits, if_pos ⟨rfl, hfits⟩, Memory.find_put_same]
    · rw [if_neg hfits, if_neg fun e => hfits e.2]
  · have hother : ¬(j = c.scratchOff ∧ j < c.cfg.scratchSize) := fun e => hj e.1
    rw [if_neg hother]
    split
    · exact Memory.find_put_ne _ (Ne.symm hj) b
    · rfl

/-! ### After the first byte -/

section
variable {s : State} {i : Fin 8} {t : Target} {b : Byte} {g : Cargo}

/-- The rest of a pump moves the bytes that follow. -/
theorem State.Ready.movedByte_next (h : s.Ready i t) (hb : s.MovesByte t b g) (k : Nat) :
    (s.pumped i t.direction 1 g).movedByte g.target k = s.movedByte t (k + 1) := by
  have hphase : (s.pumped i t.direction 1 g).ctl.regs[0x10] = s.ctl.regs[0x10] := s.pumped_phase i t.direction 1 g
  unfold State.movedByte
  rw [hb.direction, hphase]
  by_cases hin : t.direction = .toHost
  · have hp : s.ctl.phase = s.ctl.regs[0x10] := rfl
    obtain ⟨-, -, htarget⟩ := hb.inbound hin
    rw [if_pos hin, if_pos hin, htarget, hp]
    split
    · rfl
    · split
      · simp
      · rw [Nat.add_assoc, Nat.add_comm 1 k]
  · obtain ⟨hmem, hsram, -⟩ := hb.outbound hin
    rw [if_neg hin, if_neg hin, State.placeByte_eq _ (by simpa using h.board), State.placeByte_eq _ h.board,
      State.place_pumped h.ok.1 h.board, Nat.add_comm 1 k]
    exact State.byteAt_congr (by simpa using hmem) (by simp) (by simpa using hsram) _

/-- An inbound byte is stored at the place it reaches, and nowhere else. -/
theorem State.Ready.byteAt_next (h : s.Ready i t) (hb : s.MovesByte t b g) (hin : t.direction = .toHost) (p : Place) :
    (s.pumped i t.direction 1 g).byteAt p = if p = s.ctl.place 0 ∧ s.keeps p = true then some b else s.byteAt p := by
  obtain ⟨hmem, hsram, -⟩ := hb.inbound hin
  have hmap : (s.pumpStore b).memMap = s.memMap := (Acts.pumpStore s b).memMap
  rw [← State.byteAt_pumpStore h.ok h.board b p]
  exact State.byteAt_congr (by simpa using hmem) (by simpa using hmap.symm) (by simpa using hsram) p

theorem State.keeps_pumped (d : Direction) (n : Nat) (p : Place) : (s.pumped i d n g).keeps p = s.keeps p := by
  cases p with
  | inl a => simp only [State.keeps, State.decodes, State.pumped_memMap]
  | inr j => rfl

end

/-! ### All the bytes -/

namespace State.Moves

variable {s : State} {i : Fin 8} {t : Target} {bs : List Byte} {g : Cargo}

theorem ready (h : s.Moves i t bs g) : s.Ready i t := by
  cases h with
  | last ready _ => exact ready
  | more ready _ _ => exact ready

theorem inbound_target (h : s.Moves i t bs g) (hin : t.direction = .toHost) :
    g.target = { t with
      offset := t.offset + bs.length
      messageReplies := if s.ctl.phase = 0x50 then t.messageReplies.drop bs.length else t.messageReplies } := by
  induction h with
  | last _ hb => exact (hb.inbound hin).2.2
  | @more s t b bs f g _ hb _ ih =>
    rw [ih (hb.direction.trans hin), (hb.inbound hin).2.2, State.pumped_phase]
    have hcount : 1 + bs.length = bs.length + 1 := Nat.add_comm ..
    by_cases hp : s.ctl.phase = 0x50
    · simp only [if_pos hp, List.drop_drop, Nat.add_assoc, List.length_cons, hcount]
    · simp only [if_neg hp, Nat.add_assoc, List.length_cons, hcount]

theorem outbound_target (h : s.Moves i t bs g) (hout : t.direction ≠ .toHost) : g.target = t.sends bs := by
  induction h with
  | last _ hb => exact (hb.outbound hout).2.2
  | more _ hb _ ih => rw [ih (hb.direction ▸ hout), (hb.outbound hout).2.2, Target.sends_cons]

theorem outbound_memory (h : s.Moves i t bs g) (hout : t.direction ≠ .toHost) :
    g.mem = s.mem ∧ g.sram = s.ctl.sram := by
  induction h with
  | last _ hb =>
    obtain ⟨hmem, hsram, -⟩ := hb.outbound hout
    exact ⟨hmem, hsram⟩
  | more _ hb _ ih =>
    obtain ⟨hmem, hsram, -⟩ := hb.outbound hout
    obtain ⟨hmem', hsram'⟩ := ih (hb.direction ▸ hout)
    exact ⟨hmem'.trans (by simpa using hmem), hsram'.trans (by simpa using hsram)⟩

theorem given (h : s.Moves i t bs g) {k : Nat} {x : Byte} (hk : k < bs.length) (hx : s.movedByte t k = some x) :
    bs[k]? = some x := by
  induction h generalizing k with
  | last _ hb =>
    obtain rfl : k = 0 := Nat.lt_one_iff.mp hk
    exact congrArg some (hb.given x hx)
  | more ready hb _ ih =>
    cases k with
    | zero => exact congrArg some (hb.given x hx)
    | succ k =>
      rw [List.getElem?_cons_succ]
      exact ih (Nat.lt_of_succ_lt_succ hk) ((ready.movedByte_next hb k).trans hx)

/-- The mirror holds the bytes that fit, from the offset on (10_state.md R28). -/
theorem find_scratch (h : s.Moves i t bs g) (j : Nat) :
    Memory.find g.scratch j =
      if s.ctl.scratchOff ≤ j ∧ j < s.ctl.scratchOff + bs.length ∧ j < s.ctl.cfg.scratchSize
      then bs[j - s.ctl.scratchOff]? else Memory.find s.ctl.scratch j := by
  induction h with
  | @last s t b g _ hb =>
    rw [hb.scratch, Controller.find_mirror, List.length_singleton]
    by_cases hj : j = s.ctl.scratchOff
    · subst hj
      simp
    · rw [if_neg fun e => hj e.1, if_neg (by omega)]
  | @more s t b bs f g _ hb _ ih =>
    rw [ih, State.pumped_scratch, State.pumped_scratchOff, State.pumped_cfg, hb.scratch, Controller.find_mirror,
      List.length_cons]
    by_cases hj : j = s.ctl.scratchOff
    · subst hj
      rw [if_neg (by omega), Nat.sub_self, List.getElem?_cons_zero]
      simp
    · have hother : ¬(j = s.ctl.scratchOff ∧ j < s.ctl.cfg.scratchSize) := fun e => hj e.1
      rw [if_neg hother]
      by_cases hlater : s.ctl.scratchOff + 1 ≤ j ∧ j < s.ctl.scratchOff + 1 + bs.length ∧ j < s.ctl.cfg.scratchSize
      · rw [if_pos hlater, if_pos (by omega), show j - s.ctl.scratchOff = j - (s.ctl.scratchOff + 1) + 1 by omega,
          List.getElem?_cons_succ]
      · rw [if_neg hlater, if_neg (by omega)]

/-- Nothing is stored but at the places the pump reaches. -/
theorem byteAt_elsewhere (h : s.Moves i t bs g) (hin : t.direction = .toHost) {p : Place}
    (hp : ∀ k, k < bs.length → s.ctl.place k ≠ p) : (s.pumped i t.direction bs.length g).byteAt p = s.byteAt p := by
  induction h with
  | last ready hb =>
    exact (ready.byteAt_next hb hin p).trans (if_neg fun e => hp 0 Nat.one_pos e.1.symm)
  | @more s t b bs f g ready hb _ ih =>
    have hrest : ∀ k, k < bs.length → (s.pumped i t.direction 1 f).ctl.place k ≠ p := fun k hk => by
      rw [State.place_pumped ready.ok.1 ready.board, Nat.add_comm]
      exact hp (k + 1) (Nat.succ_lt_succ hk)
    have hih := ih (hb.direction.trans hin) hrest
    rw [ready.pumped_rest hb] at hih
    rw [List.length_cons, hih, ready.byteAt_next hb hin, if_neg fun e => hp 0 (Nat.succ_pos _) e.1.symm]

/-- Each byte stands at its place at the end, unless a later one has reached it. -/
theorem byteAt_place (h : s.Moves i t bs g) (hin : t.direction = .toHost) {k : Nat} (hk : k < bs.length)
    (hlast : ∀ j, k < j → j < bs.length → s.ctl.place j ≠ s.ctl.place k) (hkeeps : s.keeps (s.ctl.place k) = true) :
    (s.pumped i t.direction bs.length g).byteAt (s.ctl.place k) = bs[k]? := by
  induction h generalizing k with
  | last ready hb =>
    obtain rfl : k = 0 := Nat.lt_one_iff.mp hk
    exact (ready.byteAt_next hb hin _).trans (if_pos ⟨rfl, hkeeps⟩)
  | @more s t b bs f g ready hb rest ih =>
    have hplace (j : Nat) : (s.pumped i t.direction 1 f).ctl.place j = s.ctl.place (j + 1) := by
      rw [State.place_pumped ready.ok.1 ready.board, Nat.add_comm]
    rw [List.length_cons, ← ready.pumped_rest hb]
    cases k with
    | zero =>
      rw [rest.byteAt_elsewhere (hb.direction.trans hin) fun j hj => ?_, ready.byteAt_next hb hin, if_pos ⟨rfl, hkeeps⟩,
        List.getElem?_cons_zero]
      rw [hplace]
      exact hlast (j + 1) (Nat.succ_pos j) (Nat.succ_lt_succ hj)
    | succ k =>
      rw [List.getElem?_cons_succ, ← hplace]
      refine ih (hb.direction.trans hin) (Nat.lt_of_succ_lt_succ hk) (fun j hkj hj => ?_) ?_
      · rw [hplace, hplace]
        exact hlast (j + 1) (Nat.succ_lt_succ hkj) (Nat.succ_lt_succ hj)
      · rwa [hplace, State.keeps_pumped]

end State.Moves

end Sys2Proof.Machine
end

section
/-! The two statements about a pump (44_dma_engines.md): how many bytes it moves (R263, R266), and which go where (R264,
R270, R274, R28, R90). -/

namespace Sys2Proof.Machine

/-! ### A target that takes several bytes (20_memory.md R90) -/

namespace Target

theorem sends_eq_of_data {t : Target} (h : t.direction ≠ .command) (vs : List Byte) :
    t.sends vs = { t with offset := t.offset + vs.length, data := (t.sends vs).data } := by
  induction vs generalizing t with
  | nil => rfl
  | cons v vs ih =>
    rw [sends_cons, ih (by rwa [send_direction]), send_fst, if_neg h, List.length_cons, Nat.add_comm vs.length,
      ← Nat.add_assoc]

theorem sends_eq_of_command {t : Target} (h : t.direction = .command) (vs : List Byte) :
    t.sends vs = { t with offset := t.offset + vs.length, cmd := (t.sends vs).cmd } := by
  induction vs generalizing t with
  | nil => rfl
  | cons v vs ih =>
    rw [sends_cons, ih (by rwa [send_direction]), send_fst, if_pos h, List.length_cons, Nat.add_comm vs.length,
      ← Nat.add_assoc]

/-- Command bytes leave the places behind them alone. -/
theorem sends_cmd_after {t : Target} (h : t.direction = .command) {vs : List Byte} {j : Nat}
    (hj : t.offset + vs.length ≤ j) : (t.sends vs).cmd[j]? = t.cmd[j]? := by
  induction vs generalizing t with
  | nil => rfl
  | cons v vs ih =>
    rw [List.length_cons] at hj
    rw [sends_cons, ih (by rwa [send_direction]) (by rw [send_offset]; omega), send_cmd_eq h,
      Vector.getElem?_setIfInBounds_ne (by omega)]

/-- The command bytes after a transfer, place by place. -/
theorem getElem_sends_cmd {t : Target} (h : t.direction = .command) (vs : List Byte) (j : Fin 16) :
    some (t.sends vs).cmd[j.val] =
      if t.offset ≤ j.val ∧ j.val < t.offset + vs.length then vs[j.val - t.offset]? else some t.cmd[j.val] := by
  rw [← Vector.getElem?_eq_getElem, ← Vector.getElem?_eq_getElem]
  split
  case isTrue hin =>
    have hk : t.offset + (j.val - t.offset) = j.val := by omega
    rw [← sends_cmd h (k := j.val - t.offset) (by omega) (by omega), hk]
  case isFalse hout =>
    by_cases hbefore : j.val < t.offset
    · exact sends_cmd_before h hbefore vs
    · exact sends_cmd_after h (by omega)

end Target

/-! ### The statements -/

theorem pumpBytes_lt (c : Controller) (t : Target) : pumpBytes c t < 2 ^ 24 := by
  have htc := c.tc.isLt
  unfold pumpBytes
  omega

/-- Settles O44: the record is `State.pumped`, the target as its bytes leave it. -/
theorem pumpMovesAsManyBytesAsItMust : Obligations.PumpMovesAsManyBytesAsItMust := by
  intro s i t hok hi ht hnone hboard hdir
  obtain ⟨bs, g, hmoves, hlen, hpump⟩ := State.Ready.pump (s := s) ⟨⟨hi, ht⟩, hnone, hboard, hok⟩ hdir
  refine ⟨g.target, g.mem, g.scratch, g.sram, g.draws, fun hin => ?toHost, fun hout => ?toDevice, fun hout => ?command,
    hlen ▸ hpump⟩
  case toHost => rw [hmoves.inbound_target hin, hlen]; rfl
  case toDevice =>
    rw [hmoves.outbound_target (by simp [hout]), ← hlen]
    exact Target.sends_eq_of_data (by simp [hout]) bs
  case command =>
    rw [hmoves.outbound_target (by simp [hout]), ← hlen]
    exact Target.sends_eq_of_command hout bs

/-- Settles O45: the bytes are those the pump moves, and each memory is found byte by byte. -/
theorem pumpMovesTheDataInOrder : Obligations.PumpMovesTheDataInOrder := by
  intro s t hok ht hnone hboard hdir
  obtain ⟨i, hcurrent⟩ := State.exists_current ht
  obtain ⟨bs, g, hmoves, hlen, hpump⟩ := State.Ready.pump (s := s) ⟨hcurrent, hnone, hboard, hok⟩ hdir
  have hshort : bs.length < 2 ^ 24 := hlen ▸ pumpBytes_lt s.ctl t
  dsimp only
  rw [hpump, ← hlen]
  refine ⟨bs, rfl, fun k b hk hb => hmoves.given hk hb, fun j => ?mirror,
    fun hin => ⟨fun k hk hlast hkeeps => ?place, fun a ha => ?host, fun j hj => ?buffer⟩,
    fun hout => ⟨?mem, ?sram, g.target, ?target, fun hd j => ?data, fun hd j => ?cmd⟩⟩
  case mirror => rw [State.pumped_scratch]; exact hmoves.find_scratch j
  case place =>
    rw [State.placeKeeps_eq s hboard] at hkeeps
    rw [State.placeByte_eq _ hboard]
    have hunreached (j : Nat) (hkj : k < j) (hj : j < bs.length) : s.ctl.place j ≠ s.ctl.place k :=
      Controller.place_ne hok hboard hkj (hj.trans hshort) fun hv => hj.trans_le (hlast hv)
    exact hmoves.byteAt_place hin hk hunreached hkeeps
  case host =>
    exact hmoves.byteAt_elsewhere (p := .inl a) hin fun k hk e => ha k hk (Controller.pumpAddress_of_place hboard k e)
  case buffer =>
    refine hmoves.byteAt_elsewhere (p := .inr j) hin fun k hk e => hj ?_
    obtain ⟨hv, hkj⟩ := Controller.buffer_of_place hboard k e
    exact ⟨hv, k, hk, hkj⟩
  case mem => rw [State.pumped_mem]; exact (hmoves.outbound_memory hout).1
  case sram => rw [State.pumped_sram]; exact (hmoves.outbound_memory hout).2
  case target => simp [State.target, Controller.target, Controller.targetAt, hcurrent.curTarget]
  case data =>
    rw [hmoves.outbound_target hout, Target.sends_data (by simp [hd]), Memory.find_putAll]
  case cmd =>
    rw [hmoves.outbound_target hout]
    exact Target.getElem_sends_cmd hd bs j

end Sys2Proof.Machine
end

section
/-! The worker's turn (45_dispatch.md R302, R305, R306, R310, R311): the head word is removed and run, or the turn
passes. -/

namespace Sys2Proof.Machine

/-! ### What the worker finds (R305) -/

/-- The acting controller's head word is removed, the words `ws` stand behind it: no host is held there now (R302). -/
def State.dequeued (s : State) (ws : List Word) : State := (s.upd fun c => { c with cmdq := ws }).liftHold

theorem State.fetch_of_disabled {s : State} (h : s.ctl.workerAlive = false ∨ s.ctl.cmdq = []) : s.fetch = none := by
  obtain h | h := h
  · simp only [State.fetch, h, Bool.false_eq_true, if_false]
  · simp only [State.fetch, h, ite_self]

theorem State.fetch_of_word {s : State} {w : Word} {ws : List Word} (ha : s.ctl.workerAlive = true)
    (hq : s.ctl.cmdq = w :: ws) : s.fetch = some (w, s.dequeued ws) := by
  simp only [State.fetch, ha, hq, if_true]
  rfl

theorem State.workerStep_of_disabled {s : State} (h : s.ctl.workerAlive = false ∨ s.ctl.cmdq = []) :
    s.workerStep = .next s := by
  simp only [State.workerStep, State.fetch_of_disabled h]

/-- The word's instruction completes (60_exceptions.md R333), so the step does. -/
theorem State.workerStep_of_word {s : State} {w : Word} {ws : List Word} (ha : s.ctl.workerAlive = true)
    (hq : s.ctl.cmdq = w :: ws) :
    ∃ t, exec (decode s.ctl.cfg.shutdown (.message w)) (s.dequeued ws) = .next t ∧ Acts (s.dequeued ws) t ∧
      s.workerStep = .next t.recompute := by
  obtain ⟨t, ht, hacts⟩ := Acts.exec (decode s.ctl.cfg.shutdown (.message w)) (s.dequeued ws)
  have hexec : exec (decodeMessage (s.dequeued ws).ctl.cfg.shutdown w) (s.dequeued ws) = .next t := ht
  refine ⟨t, ht, hacts, ?_⟩
  simp only [State.workerStep, State.fetch_of_word ha hq, hexec]

/-! ### The step -/

section
variable {s : State} {slot : Nat} {ts : List Turn} (ht : s.turns = .worker slot :: ts)
include ht

theorem step_worker_absent (hf : { s with turns := ts }.focus slot = none) : step s = .next { s with turns := ts } := by
  simp only [step, ht, State.turn, hf]

theorem step_worker {s' : State} (hf : { s with turns := ts }.focus slot = some s') : step s = s'.workerStep := by
  simp only [step, ht, State.turn, hf]

end

/-- Settles O4: the worker's step by what it finds in its queue, at the controller the turn is for. -/
theorem workerStepRunsTheHeadWord : Obligations.WorkerStepRunsTheHeadWord := by
  refine fun s slot ts ht => ⟨step_worker_absent ht, fun s' hf => ⟨fun hno => ?passes, fun w ws ha hq => ?runs⟩⟩
  case passes => exact (step_worker ht hf).trans (State.workerStep_of_disabled hno)
  case runs =>
    obtain ⟨t, hexec, -, hstep⟩ := State.workerStep_of_word ha hq
    obtain rfl : s'.ctl.slot = slot := State.focus_ctl_slot hf
    exact ⟨t, hexec, (step_worker ht hf).trans hstep⟩

/-- Settles O5: MSG_CMD is its chip command (`exec_msgCmd`), which completes. -/
theorem msgCmdRunsItsChipCommand : Obligations.MsgCmdRunsItsChipCommand := by
  intro tid cmd s
  obtain ⟨t, ht, -⟩ := Acts.exec (decodeCommand cmd) s
  exact ⟨t, (exec_msgCmd tid cmd s).trans ht, ht⟩

/-- Settles O40: both meanings are those records. -/
theorem unknownAndShutdownMessages : Obligations.UnknownAndShutdownMessages :=
  fun _ _ _ _ => ⟨rfl, rfl⟩

end Sys2Proof.Machine
end

section
/-! Construction and board reset (45_dispatch.md R320, R321; 10_state.md R55; 42_chip_commands.md R190). -/

namespace Sys2Proof.Machine

/-! ### Construction (R320) -/

theorem isSome_attach_foldl (ids : List (Fin 8)) (v : Vector (Option Target) 8) (i : Fin 8) :
    (ids.foldl (fun v i => v.set i.val (some Target.fresh)) v)[i.val].isSome =
      (v[i.val].isSome || decide (i ∈ ids)) := by
  induction ids generalizing v with
  | nil => simp
  | cons j ids ih =>
    rw [List.foldl_cons, ih, Vector.getElem_set]
    by_cases hij : i = j
    · simp [hij]
    · have hne : j.val ≠ i.val := fun e => hij (Fin.ext e.symm)
      simp [hne, hij]

/-- A target stands at the IDs named, and nowhere else (00_scope.md R7). -/
theorem isSome_attach (ids : List (Fin 8)) (i : Fin 8) : (attach ids)[i.val].isSome = decide (i ∈ ids) := by
  rw [attach, isSome_attach_foldl]
  simp

theorem hasBit_zero {w : Nat} (mask : BitVec w) : hasBit (0#w) mask = false := by simp [hasBit]

/-- No board asks for an interrupt at construction (70_reset_and_hazards.md R381). -/
theorem Controller.pred_construct (slot : Nat) (cfg : Params) (targets : Vector (Option Target) 8) :
    (Controller.construct slot cfg targets).pred = false := by
  unfold Controller.pred Controller.construct
  cases cfg.variant <;> simp [hasBit_zero]

/-- Settles O53: the fields are those of the record, the slots and registers all alike. -/
theorem constructionClearsEverything : Obligations.ConstructionClearsEverything := by
  intro slot cfg ids
  refine ⟨fun i => Vector.getElem_replicate i.isLt, rfl, rfl, rfl, rfl, rfl, rfl, List.length_replicate, fun x hx => ?_,
    rfl, rfl, rfl, rfl, rfl, rfl, rfl, rfl, rfl, rfl, rfl, rfl, rfl, rfl, rfl, Controller.pred_construct ..,
    isSome_attach ids⟩
  rw [List.eq_of_mem_replicate hx]
  exact ⟨rfl, rfl⟩

/-! ### Board reset (R321) -/

theorem Controller.zeroRegs_eq (rs : List RegNum) (c : Controller) :
    c.zeroRegs rs = { c with regs := (c.zeroRegs rs).regs } := by
  induction rs generalizing c with
  | nil => rfl
  | cons r rs ih => exact ih (c.setReg r 0)

theorem mem_resetRegs_iff (i : Fin 32) :
    BitVec.ofFin i ∈ resetRegs ↔ (1 ≤ i.val ∧ i.val ≤ 0x15) ∨ i.val = 0x18 := by
  revert i; decide

/-- The registers after a reset (R190). -/
theorem Controller.regs_zeroRegs_resetRegs (c : Controller) :
    (c.zeroRegs resetRegs).regs = Vector.ofFn fun i : Fin 32 =>
      if (1 ≤ i.val ∧ i.val ≤ 0x15) ∨ i.val = 0x18 then 0 else c.regs[i.val] := by
  apply Vector.ext
  intro i hi
  rw [Vector.getElem_ofFn]
  simp only [← mem_resetRegs_iff ⟨i, hi⟩]
  exact c.reg_zeroRegs resetRegs (BitVec.ofFin ⟨i, hi⟩)

/-- A recompute before a change that takes no account of the latches is lost in the one behind it. -/
theorem State.recompute_upd_recompute {s : State} {f : Controller → Controller} (h : f s.ctl.foldLatch = f s.ctl) :
    (s.recompute.upd f).recompute = (s.upd f).recompute := by
  have hothers : (s.others.map Controller.foldLatch).map Controller.foldLatch = s.others.map Controller.foldLatch :=
    congrArg State.others s.recompute_recompute
  simp only [State.recompute, State.upd, h, hothers]

/-- What a board reset clears beside the chip's reset (R321). -/
def Controller.boardCleared (c : Controller) : Controller :=
  { c with
    istr := 0, cntr := 0, wtc := 0, acr := 0, dawr := 0, gcntr := 0, gaddr := 0, gbank := 0
    sramOff := 0, dmaActive := .stopped, busy := false, scratchOff := 0 }

theorem State.boardReset_eq (s : State) :
    s.boardReset = (s.upd fun c => c.resetChip.boardCleared).recompute := by
  have hfold (u : State) :
      (u.recompute.upd Controller.boardCleared).recompute = (u.upd Controller.boardCleared).recompute :=
    State.recompute_upd_recompute rfl
  rw [← State.upd_upd, ← hfold]
  rfl

/-- The controller a board reset leaves, but for the latches' fold. -/
theorem Controller.resetChip_boardCleared (c : Controller) : c.resetChip.boardCleared = { c with
    regs := Vector.ofFn fun i : Fin 32 => if (1 ≤ i.val ∧ i.val ≤ 0x15) ∨ i.val = 0x18 then 0 else c.regs[i.val]
    sasr := 0, selected := false, busy := false, curTarget := none, auxInt := false, dataAvail := .closed
    queue := c.queue.map fun x => { x with count := 0 }
    qIndex := 0, scratchOff := 0, istr := 0, cntr := 0, wtc := 0, acr := 0, dawr := 0, gcntr := 0, gaddr := 0
    gbank := 0, sramOff := 0, dmaActive := .stopped } := by
  rw [resetChip, zeroRegs_eq, regs_zeroRegs_resetRegs]
  rfl

end Sys2Proof.Machine
end

section
/-! The turn of an event from outside, and of the tick (00_scope.md R12; 45_dispatch.md R315, R320 to R322). -/

namespace Sys2Proof.Machine

/-! ### An event at one controller (R322) -/

theorem State.atSlot_absent {s : State} {slot : Nat} (h : s.focus slot = none) (f : State → State) :
    s.atSlot slot f = s := by
  simp only [State.atSlot, h]

section
variable {s s' : State} {slot : Nat} (h : s.focus slot = some s')
include h

theorem State.atSlot_down (hd : s'.ctl.down = true) (f : State → State) : s.atSlot slot f = s := by
  simp only [State.atSlot, h, hd, if_true]

theorem State.atSlot_up (hd : s'.ctl.down = false) (f : State → State) : s.atSlot slot f = f s' := by
  simp only [State.atSlot, h, hd, Bool.false_eq_true, if_false]

end

/-- A turn that is `f` at controller `slot`: nothing where there is none, or where it has been torn down. -/
theorem step_atSlot {s rest : State} {slot : Nat} {f : State → State} (h : step s = .next (rest.atSlot slot f)) :
    (rest.focus slot = none → step s = .next rest) ∧ ∀ s', rest.focus slot = some s' →
      (s'.ctl.down = true → step s = .next rest) ∧ (s'.ctl.down = false → step s = .next (f s')) :=
  ⟨fun hf => State.atSlot_absent hf f ▸ h, fun _ hf =>
    ⟨fun hd => State.atSlot_down hf hd f ▸ h, fun hd => State.atSlot_up hf hd f ▸ h⟩⟩

theorem step_tick {s : State} {slot : Nat} {ts : List Turn} (ht : s.turns = .tick slot :: ts) :
    step s = .next ({ s with turns := ts }.atSlot slot State.tick) := by
  simp only [step, ht, State.turn]

theorem step_external {s : State} {e : External} {ts : List Turn} (ht : s.turns = .external e :: ts) :
    step s = .next ({ s with turns := ts }.external e) := by
  simp only [step, ht, State.turn]

/-! ### The events -/

theorem State.construct_fresh {s : State} {slot : Nat} {cfg : Params} (hslot : ∀ c ∈ s.controllers, c.slot ≠ slot)
    (hp : paramsLegal cfg = true) (ids : List (Fin 8)) :
    s.construct slot cfg ids = { s with others := s.others ++ [Controller.construct slot cfg (attach ids)] } := by
  have hnew : ¬(s.controllers.any (fun c => c.slot == slot) || !paramsLegal cfg) = true := by
    simpa [hp] using hslot
  exact if_neg hnew

theorem State.construct_refused {s : State} {slot : Nat} {cfg : Params}
    (h : (∃ c ∈ s.controllers, c.slot = slot) ∨ paramsLegal cfg = false) (ids : List (Fin 8)) :
    s.construct slot cfg ids = s := by
  have hno : (s.controllers.any (fun c => c.slot == slot) || !paramsLegal cfg) = true := by
    simpa using h
  exact if_pos hno

theorem State.memWrite_eq (s : State) (a : Word) (v : Byte) :
    s.memWrite a v = { s with mem := if s.decodes a then Memory.put s.mem a.toNat v else s.mem } := by
  unfold State.memWrite
  split <;> rfl

/-- The answer joins the list of its kind, where a target is attached (20_memory.md R90). -/
theorem Controller.addReply_eq (c : Controller) (id : Fin 8) (r : TargetReply) :
    c.addReply id r = { c with targets := match c.targets[id.val] with
      | none => c.targets
      | some t => c.targets.set id.val (some (t.addReply r)) } := by
  have hat : c.targetAt id = c.targets[id.val] := rfl
  unfold Controller.addReply
  rw [hat]
  cases c.targets[id.val] <;> rfl

/-- Settles O54: board reset is `State.boardReset_eq`, and the step of an event is its meaning, at one controller
(`step_atSlot`) or none. -/
theorem boardResetAndTheOtherEvents : Obligations.BoardResetAndTheOtherEvents := by
  refine ⟨fun s => ?reset, fun s e ts ht =>
    ⟨?boardReset, ?xtRequest, ?xtDma, ?autoconfig, ?construct, ?memoryWrite, ?targetReply⟩⟩
  case reset => rw [State.boardReset_eq, State.upd, Controller.resetChip_boardCleared]
  case boardReset => rintro slot rfl; exact step_atSlot (step_external ht)
  case xtRequest => rintro slot level rfl; exact step_atSlot (step_external ht)
  case xtDma => rintro slot v rfl; exact step_atSlot (step_external ht)
  case autoconfig => rintro slot en conf rfl; exact step_atSlot (step_external ht)
  case construct =>
    rintro slot cfg ids rfl
    rw [step_external ht]
    exact ⟨fun hslot hp => congrArg _ (State.construct_fresh (s := { s with turns := ts }) hslot hp ids),
      fun hno => congrArg _ (State.construct_refused (s := { s with turns := ts }) hno ids)⟩
  case memoryWrite =>
    rintro a v rfl
    rw [step_external ht, State.external, State.memWrite_eq]
    rfl
  case targetReply =>
    rintro slot id r rfl
    have h := step_atSlot (step_external ht)
    simp only [State.upd, Controller.addReply_eq] at h
    cases r <;> exact h

end Sys2Proof.Machine
end

section
/-! The full command queue (45_dispatch.md R302, R322): which accesses it holds, and what lifts the hold. -/

namespace Sys2Proof.Machine

/-! ### An access that would enqueue -/

section
variable {s : State} (hfull : s.ctl.cmdq.length = s.ctl.cfg.cmdqCap)
include hfull

theorem State.enqueue_of_full (w : Word) : s.enqueue w = none := if_neg (hfull ▸ lt_irrefl _)

theorem State.teardown_of_full (slot : Nat) : s.teardown slot = .held := by
  simp only [State.teardown, State.enqueue_of_full hfull]

theorem State.pioClose_of_full {t : Target} (h : s.ctl.onLastByte t) (u : Target) (b : Byte) (mtype : Half) :
    (s.upd fun c => c.byteMoved u b).pioClose (decide (t.dataLength ≤ t.offset + 1)) mtype = none := by
  have hlast : decide (t.dataLength ≤ t.offset + 1) = true ∨ (s.upd fun c => c.byteMoved u b).ctl.tc = 0 := by
    rw [decide_eq_true_iff, State.upd_ctl, Controller.byteMoved_tc_eq_zero_iff]
    exact h
  rw [State.pioClose, if_pos hlast]
  exact State.enqueue_of_full (by simpa using hfull) _

/-- COMMAND (40_register_access.md R148). -/
theorem State.datWrite_command_of_full (hp : s.ctl.sasr = COMMAND) (v : Byte) : s.datWrite v = none := by
  have hwrite : s.writeCommand v = none :=
    State.enqueue_of_full (s := s.upd fun c => { c.setReg COMMAND v with busy := true }) hfull _
  rw [State.datWrite, hp, State.writeRegister_command, hwrite]
  rfl

/-- The last byte written at DATA (R153). -/
theorem State.OpenAt.datWrite_of_full {i : Fin 8} {t : Target} (h : s.OpenAt i t) (hlast : s.ctl.onLastByte t)
    (v : Byte) : s.datWrite v = none := by
  rw [State.datWrite, h.sasr, State.writeRegister_data, h.writeData, State.pioClose_of_full hfull hlast]
  rfl

/-- The last byte read at DATA (R152). -/
theorem State.OpenAt.datRead_of_full {i : Fin 8} {t : Target} (h : s.OpenAt i t) (hlast : s.ctl.onLastByte t) :
    s.datRead = none := by
  obtain ⟨b, n, ms, -, hrecv⟩ := s.recvByte_gives t s.ctl.phase
  rw [State.datRead, h.sasr, State.readRegister_data, h.readData hrecv,
    State.pioClose_of_full (s := { s with draws := n }) hfull hlast]
  rfl

end

/-- Access `a` of DAT is a COMMAND write, or moves the last byte of an open transfer. -/
abbrev State.datEnqueues (s : State) (a : Access) : Prop :=
  (∃ v, a = .write v ∧ s.ctl.sasr = 0x18) ∨
    (s.ctl.sasr = 0x19 ∧ s.ctl.dataAvail ≠ .closed ∧
      ∃ t, s.target = some t ∧ (s.ctl.tc.toNat ≤ 1 ∨ t.dataLength ≤ t.offset + 1))

theorem State.portAccess_dat_of_full {s : State} (hfull : s.ctl.cmdq.length = s.ctl.cfg.cmdqCap) {a : Access}
    (ha : s.datEnqueues a) : s.portAccess .dat a = .held := by
  have hport : hasPort s.ctl.cfg.variant .dat = true := rfl
  have hwrite {v : Word} (h : s.datWrite (v.extractLsb' 0 8) = none) : s.portAccess .dat (.write v) = .held := by
    simp only [State.portAccess_write hport, State.portWrite, h]
  have hread (h : s.datRead = none) : s.portAccess .dat .read = .held := by
    simp only [State.portAccess_read hport, State.portRead, h]
  obtain ⟨v, rfl, hp⟩ | ⟨hp, hopen, t, ht, hlast⟩ := ha
  case inl => exact hwrite (State.datWrite_command_of_full hfull hp _)
  case inr =>
    obtain ⟨i, hcurrent⟩ := State.exists_current ht
    have hat : s.OpenAt i t := ⟨hp, hcurrent.curTarget, hcurrent.attached, hopen⟩
    cases a with
    | read => exact hread (hat.datRead_of_full hfull hlast.symm)
    | write v => exact hwrite (hat.datWrite_of_full hfull hlast.symm _)

/-- A byte access, or a word access at SEL or DAT, is held where the port's operation is (20_memory.md R72, R73). -/
theorem State.hostPage_held {s : State} {off : Nat} {p : Port} {w : Width} {a : Access}
    (hp : s.ctl.portAt off = some p) (hw : w = .byte ∨ (w = .word ∧ (p = .sel ∨ p = .dat)))
    (ha : s.portAccess p a = .held) (slot : Nat) (joined : Bool) : s.hostPage slot off w a joined = .held := by
  have hsingle : splitAccess (some p) slot off w a joined = [] := by
    obtain rfl | ⟨rfl, hp⟩ := hw
    · exact splitAccess_byte _ slot off a joined
    · exact splitAccess_word_chip hp slot off a joined
  simp only [State.hostPage, hp, hsingle, State.pageAccess, ha, finishAccess]

/-- The access stays pending, and the host is held (logs 22, 41). -/
theorem step_host_holds {s s' : State} {ts : List Turn} {op : HostOp} {ops : List HostOp} (ht : s.turns = .host :: ts)
    (hh : s.hostHeld = none) (ho : s.hostOps = op :: ops)
    (hf : { s with turns := ts, hostOps := ops }.focus op.slot = some s') (hk : s'.ctl.takes op = true)
    (ha : s'.hostAccess op = .held) : step s = .next { s with turns := ts, hostHeld := some op.slot } := by
  rw [step_host_free ht hh]
  simp only [State.hostProceeds, ho, hf, hk, ha, if_true]

/-! ### What a step does to a held host -/

/-- The hold and the pending accesses are the same in both states. -/
structure State.SameHost (s t : State) : Prop where
  hostHeld : t.hostHeld = s.hostHeld
  hostOps  : t.hostOps = s.hostOps

theorem State.SameHost.refl (s : State) : s.SameHost s := ⟨rfl, rfl⟩

theorem State.SameHost.trans {s t u : State} (h : s.SameHost t) (k : t.SameHost u) : s.SameHost u :=
  ⟨k.hostHeld.trans h.hostHeld, k.hostOps.trans h.hostOps⟩

theorem Acts.sameHost {s t : State} (h : Acts s t) : s.SameHost t := ⟨h.hostHeld, h.hostOps⟩

theorem State.sameHost_focus {s s' : State} {slot : Nat} (h : s.focus slot = some s') : s.SameHost s' :=
  ⟨by rw [State.focus_frame h], State.focus_hostOps h⟩

theorem State.sameHost_atSlot (s : State) (slot : Nat) {f : State → State} (hf : ∀ u : State, u.SameHost (f u)) :
    s.SameHost (s.atSlot slot f) := by
  unfold State.atSlot
  split
  · exact .refl s
  next s' hs =>
    split
    · exact .refl s
    · exact (State.sameHost_focus hs).trans (hf s')

theorem State.sameHost_construct (s : State) (slot : Nat) (cfg : Params) (ids : List (Fin 8)) :
    s.SameHost (s.construct slot cfg ids) := by
  unfold State.construct
  split <;> exact ⟨rfl, rfl⟩

/-- An event from outside is none of the host's (log 41). -/
theorem State.sameHost_external (s : State) (e : External) : s.SameHost (s.external e) := by
  cases e with
  | boardReset slot => exact s.sameHost_atSlot slot fun u => (Acts.boardReset u).sameHost
  | construct slot cfg ids => exact s.sameHost_construct slot cfg ids
  | memoryWrite a v => exact (Acts.memWrite s a v).sameHost
  | autoconfig slot | xtRequest slot | xtDma slot | targetReply slot =>
    exact s.sameHost_atSlot slot fun u => ⟨rfl, rfl⟩

/-- Controller `k` has a live worker and a word for it. -/
abbrev State.WorkerReady (s : State) (k : Nat) : Prop :=
  ∃ c ∈ s.controllers, c.slot = k ∧ c.workerAlive = true ∧ c.cmdq ≠ []

/-- The word a worker removes lifts the hold of its own controller, and no other (R302). -/
theorem State.workerStep_hold {s : State} {k : Nat} (hk : s.hostHeld = some k) : ∃ t, s.workerStep = .next t ∧
    (s.SameHost t ∨ (t.hostHeld = none ∧ t.hostOps = s.hostOps ∧
      s.ctl.slot = k ∧ s.ctl.workerAlive = true ∧ s.ctl.cmdq ≠ [])) := by
  by_cases hno : s.ctl.workerAlive = false ∨ s.ctl.cmdq = []
  case pos => exact ⟨s, State.workerStep_of_disabled hno, .inl (.refl s)⟩
  case neg =>
    obtain ⟨halive, hne⟩ := not_or.mp hno
    have halive : s.ctl.workerAlive = true := by simpa using halive
    obtain ⟨w, ws, hq⟩ := List.exists_cons_of_ne_nil hne
    obtain ⟨t, -, hacts, hstep⟩ := State.workerStep_of_word halive hq
    have hops : t.recompute.hostOps = s.hostOps := hacts.hostOps
    have hheld : t.recompute.hostHeld = (s.dequeued ws).hostHeld := hacts.hostHeld
    refine ⟨t.recompute, hstep, ?_⟩
    by_cases hslot : s.ctl.slot = k
    · have hlifted : (s.dequeued ws).hostHeld = none := if_pos (hslot ▸ hk)
      exact .inr ⟨hheld.trans hlifted, hops, hslot, halive, hne⟩
    · have hother : (s.dequeued ws).hostHeld = some k :=
        State.liftHold_other (s := s.upd fun c => { c with cmdq := ws }) hk (Ne.symm hslot)
      exact .inl ⟨(hheld.trans hother).trans hk.symm, hops⟩

theorem State.turn_hold {s : State} {k : Nat} (hk : s.hostHeld = some k) (a : Turn) : ∃ t, s.turn a = .next t ∧
    (s.SameHost t ∨ (t.hostHeld = none ∧ t.hostOps = s.hostOps ∧ a = .worker k ∧ s.WorkerReady k)) := by
  cases a with
  | host => exact ⟨s, State.hostTurn_held hk, .inl (.refl s)⟩
  | tick slot => exact ⟨_, rfl, .inl (s.sameHost_atSlot slot fun u => (Acts.tick u).sameHost)⟩
  | external e => exact ⟨_, rfl, .inl (s.sameHost_external e)⟩
  | worker slot =>
    simp only [State.turn]
    cases hf : s.focus slot with
    | none => exact ⟨s, rfl, .inl (.refl s)⟩
    | some s' =>
      have hsame := State.sameHost_focus hf
      obtain ⟨t, ht, hkept | ⟨hfree, hops, hslot, halive, hne⟩⟩ := State.workerStep_hold (hsame.hostHeld.trans hk)
      · exact ⟨t, ht, .inl (hsame.trans hkept)⟩
      · have hmem : s'.ctl ∈ s.controllers := (State.focus_controllers_perm hf).mem_iff.mp (List.mem_cons_self ..)
        obtain rfl : slot = k := (State.focus_ctl_slot hf).symm.trans hslot
        exact ⟨t, ht, .inr ⟨hfree, hops.trans hsame.hostOps, rfl, s'.ctl, hmem, hslot, halive, hne⟩⟩

/-- Settles O8: the acting controller's answer is a hold, access by access; and a turn lifts a hold where it is its
worker's (`State.turn_hold`). -/
theorem fullQueueHoldsTheHost : Obligations.FullQueueHoldsTheHost := by
  refine ⟨fun s s' ts op ops slot ht hh ho hf hd hfull hop => ?holds, fun s k hk => ?lifts⟩
  case holds =>
    obtain rfl | ⟨a, hen, rfl | ⟨off, w, joined, rfl, hw, hp⟩, ha⟩ := hop
    · exact step_host_holds ht hh ho hf (Controller.takes_teardown hd slot) (State.teardown_of_full hfull slot)
    · refine step_host_holds ht hh ho hf ((Controller.takes_port hd ..).trans hen) ?_
      simp only [State.hostAccess, State.portAccess_dat_of_full hfull ha, finishAccess]
    · exact step_host_holds ht hh ho hf ((Controller.takes_page hd ..).trans hen)
        (State.hostPage_held hp (hw.imp_right fun h => ⟨h, .inr rfl⟩) (State.portAccess_dat_of_full hfull ha) slot
          joined)
  case lifts =>
    unfold step
    split
    next a ts hts =>
      obtain ⟨t, hturn, h⟩ := State.turn_hold (s := { s with turns := ts }) hk a
      refine ⟨t, hturn, h.imp (fun hsame => ⟨hsame.hostHeld.trans hk, hsame.hostOps⟩) ?_⟩
      exact fun ⟨hfree, hops, ha, hready⟩ => ⟨hfree, hops, .inr ⟨ts, by rw [hts, ha]⟩, hready⟩
    next hts =>
      obtain ⟨t, hturn, h⟩ := State.turn_hold (s := { s with draws := s.draws + 1 }) hk _
      refine ⟨t, hturn, h.imp (fun hsame => ⟨hsame.hostHeld.trans hk, hsame.hostOps⟩) ?_⟩
      exact fun ⟨hfree, hops, _, hready⟩ => ⟨hfree, hops, .inl hts, hready⟩

end Sys2Proof.Machine
end

section
/-! The tick (45_dispatch.md R315, R316): what its poll leaves alone, and the ticks that drive nothing. -/

namespace Sys2Proof.Machine

/-! ### What a poll leaves alone (41_delay_queue.md R174) -/

namespace Controller

variable (c : Controller)

/-- A poll changes the registers, the queue and the two flags, and nothing else. -/
theorem pollOnce_frame :
    c.pollOnce = { c with
      regs := c.pollOnce.regs, queue := c.pollOnce.queue, auxInt := c.pollOnce.auxInt, busy := c.pollOnce.busy } := by
  cases hint : c.auxInt with
  | true => rw [pollOnce_of_pending hint]
  | false =>
    rw [pollOnce_of_not_pending hint]
    cases (expired c.queue).getLast? <;> rfl

@[simp] theorem pollOnce_dataAvail : c.pollOnce.dataAvail = c.dataAvail := by rw [pollOnce_frame]
@[simp] theorem pollOnce_curTarget : c.pollOnce.curTarget = c.curTarget := by rw [pollOnce_frame]
@[simp] theorem pollOnce_targets : c.pollOnce.targets = c.targets := by rw [pollOnce_frame]
@[simp] theorem pollOnce_selected : c.pollOnce.selected = c.selected := by rw [pollOnce_frame]
@[simp] theorem pollOnce_gaddr : c.pollOnce.gaddr = c.gaddr := by rw [pollOnce_frame]
@[simp] theorem pollOnce_sram : c.pollOnce.sram = c.sram := by rw [pollOnce_frame]
@[simp] theorem target_pollOnce : c.pollOnce.target = c.target := target_congr c.pollOnce_curTarget c.pollOnce_targets

/-- Of the registers a poll writes the status latch alone (R176). -/
theorem pollOnce_reg_ne {i : RegNum} (h : SCSI_STATUS ≠ i) : c.pollOnce.reg i = c.reg i := by
  cases hint : c.auxInt with
  | true => rw [pollOnce_of_pending hint]
  | false =>
    rw [pollOnce_of_not_pending hint]
    cases (expired c.queue).getLast? with
    | none => rfl
    | some st => exact reg_setReg_ne _ h st

@[simp] theorem tc_pollOnce : c.pollOnce.tc = c.tc := by
  simp only [tc, pollOnce_reg_ne c (show SCSI_STATUS ≠ TC_MSB by decide),
    pollOnce_reg_ne c (show SCSI_STATUS ≠ TC_MID by decide), pollOnce_reg_ne c (show SCSI_STATUS ≠ TC_LSB by decide)]

end Controller

/-! ### What the tick has to drive (R316) -/

theorem State.dmaContinue_idle {s : State} (h : s.ctl.dataAvail ≠ .dma ∨ s.ctl.dmaActive = .stopped) :
    s.dmaContinue = s := by
  refine if_neg fun ⟨hopen, hstarted⟩ => ?_
  obtain h | h := h
  · exact h hopen
  · simp [Controller.dmaStarted, h] at hstarted

theorem State.dmaContinue_open {s : State} (hopen : s.ctl.dataAvail = .dma) (hstarted : s.ctl.dmaActive ≠ .stopped) :
    s.dmaContinue = s.dmaDrive :=
  if_pos ⟨hopen, by simp [Controller.dmaStarted, hstarted]⟩

/-- Nothing can be transferred: the transfer closes. -/
theorem State.dmaDrive_closes {s : State} (h : s.target = none ∨ ∃ t, s.target = some t ∧ t.direction = .nothing) :
    s.dmaDrive = s.upd fun c => { c with dataAvail := .closed } := by
  obtain ht | ⟨t, ht, hdir⟩ := h
  · simp only [State.dmaDrive, ht]
  · simp only [State.dmaDrive, ht, hdir, if_true]

/-- The pump refuses (44_dma_engines.md R275; 70_reset_and_hazards.md R410): nothing happens. -/
theorem State.dmaDrive_refused {s : State} {t : Target} (ht : s.target = some t) (hdir : t.direction ≠ .nothing)
    (hpump : s.pump = (s, false)) : s.dmaDrive = s := by
  simp only [State.dmaDrive, ht, if_neg hdir, hpump, Bool.false_eq_true, if_false]

/-- Settles O50: the turn is one at one controller (`step_atSlot`), and a tick is its `DmaContinue`, then the poll and
the recompute. -/
theorem tickWithNothingToDrive : Obligations.TickWithNothingToDrive := by
  refine ⟨fun s slot ts ht => step_atSlot (step_tick ht), fun s => ⟨fun hidle => ?idle, fun hopen hstarted =>
    ⟨fun hnothing => ?closes, fun t ht hdir hrefuses => ?refused⟩⟩⟩
  case idle => rw [State.tick, State.dmaContinue_idle hidle, State.upd]
  case closes =>
    rw [State.tick, State.dmaContinue_open hopen hstarted, State.dmaDrive_closes hnothing]
    rfl
  case refused =>
    obtain ⟨-, hboard, -, hmismatch⟩ := pumpRefusesWithoutEffect s
    have hpump : s.pump = (s, false) := by
      obtain ⟨hv, hbit⟩ | hv := hrefuses
      · exact hmismatch t ht hv (by simpa using hbit)
      · exact hboard hv
    have htick : s.tick = State.recompute { s with ctl := s.ctl.pollOnce } := by
      rw [State.tick, State.dmaContinue_open hopen hstarted, State.dmaDrive_refused ht hdir hpump, State.upd]
    rw [htick]
    exact ⟨rfl, s.ctl.pollOnce_dataAvail.trans hopen, s.ctl.target_pollOnce.trans ht, s.ctl.tc_pollOnce,
      s.ctl.pollOnce_gaddr⟩

end Sys2Proof.Machine
end

section
/-! A status posted while no other is due, and the poll behind it (41_delay_queue.md R172 to R176). -/

namespace Sys2Proof.Machine

/-! ### The poll of a queue in which one slot at most is due -/

/-- No interrupt is pending and no status is due: a poll delivers nothing but what is posted before it. -/
structure Controller.Quiet (c : Controller) : Prop where
  auxInt : c.auxInt = false
  notDue : ∀ x ∈ c.queue, x.count ≠ 1
  qIndex : c.qIndex < c.queue.length

theorem expired_eq_nil_iff (q : List Slot) : expired q = [] ↔ ∀ x ∈ q, x.count ≠ 1 := by
  simp [expired]

theorem expired_set_of_notDue {q : List Slot} (h : ∀ x ∈ q, x.count ≠ 1) {i : Nat} (hi : i < q.length) (st : Byte)
    (n : Nat) : expired (q.set i ⟨st, n⟩) = if n = 1 then [st] else [] := by
  have hbefore : expired (q.take i) = [] := (expired_eq_nil_iff _).mpr fun x hx => h x (List.mem_of_mem_take hx)
  have hafter : expired (q.drop (i + 1)) = [] := (expired_eq_nil_iff _).mpr fun x hx => h x (List.mem_of_mem_drop hx)
  rw [List.set_eq_take_append_cons_drop, if_pos hi, expired_append, expired_cons, hbefore, hafter, List.nil_append]

/-- Every occupied slot has counted down by one. -/
def Controller.countedDown (c : Controller) : Controller := { c with queue := c.queue.map pollSlot }

namespace Controller.Quiet

variable {c : Controller}

theorem pollOnce (h : c.Quiet) : c.pollOnce = c.countedDown := by
  rw [pollOnce_of_not_pending h.auxInt, (expired_eq_nil_iff _).mpr h.notDue]
  rfl

theorem pollOnce_awaits (h : c.Quiet) (st : Byte) (n : Nat) :
    (c.awaits st n).pollOnce =
      if n = 1 then (c.awaits st n).countedDown.deliver st else (c.awaits st n).countedDown := by
  have hq : expired (c.awaits st n).queue = if n = 1 then [st] else [] := expired_set_of_notDue h.notDue h.qIndex st n
  rw [pollOnce_of_not_pending (c := c.awaits st n) h.auxInt, hq]
  split <;> rfl

end Controller.Quiet

/-! ### A status that is delivered in the same tick -/

/-- The phase has moved on to `phase`, and its status stands in the latch with the interrupt pending. -/
def Controller.Arrives (c : Controller) (phase status : Byte) : Prop :=
  c.regs[0x10] = phase ∧ c.auxInt = true ∧ c.busy = false ∧ c.regs[0x17] = status ∧ c.tc = 0 ∧
    ∃ t, c.target = some t ∧ t.offset = 0

section
variable {c : Controller} {i : Fin 8} (hi : c.curTarget = some i) (next status : Byte) (t : Target)

theorem Controller.advancedTo_tc : (c.advancedTo i next status t).tc = 0 := by
  have h : (c.advancedTo i next status t).tc = (((c.setPhase next).setTc 0).setTarget t).tc := by
    rw [Controller.setTarget_tc]; rfl
  rw [h]; simp

include hi

theorem Controller.target_advancedTo : (c.advancedTo i next status t).target = some t := by
  have hcur : (c.advancedTo i next status t).curTarget = some i := hi
  have hat : (c.advancedTo i next status t).targets = c.targets.set i.val (some t) := rfl
  simp [Controller.target, Controller.targetAt, hcur, hat]

/-- The status of an advancing arm is posted with the least delay, so the next poll delivers it. -/
theorem Controller.Quiet.arrives (h : c.Quiet) (ht : t.offset = 0) :
    (c.advancedTo i next status t).pollOnce.Arrives next status := by
  have hpoll : (c.advancedTo i next status t).pollOnce =
      (c.advancedTo i next status t).countedDown.deliver status := by
    -- but for the slot that has been posted
    have hbefore : Controller.Quiet { c.advancedTo i next status t with queue := c.queue, qIndex := c.qIndex } :=
      ⟨h.auxInt, h.notDue, h.qIndex⟩
    exact hbefore.pollOnce_awaits status 1
  have hphase := (c.advancedTo i next status t).pollOnce_phase.trans (c.advancedTo_phase i next status t)
  have htc := (c.advancedTo i next status t).tc_pollOnce.trans (Controller.advancedTo_tc next status t)
  have htarget := (c.advancedTo i next status t).target_pollOnce.trans (Controller.target_advancedTo hi next status t)
  have hlatch : (c.advancedTo i next status t).pollOnce.reg SCSI_STATUS = status := by
    rw [hpoll]
    exact Controller.reg_setReg_same _ SCSI_STATUS status
  exact ⟨hphase, by rw [hpoll]; rfl, by rw [hpoll]; rfl, hlatch, htc, t, htarget, ht⟩

end

/-! ### A status that waits -/

/-- The phase, the counter and the current target are the same in both. -/
def Controller.SameTransfer (c d : Controller) : Prop := d.phase = c.phase ∧ d.tc = c.tc ∧ d.target = c.target

/-- The host sees no change. -/
def Controller.Silent (c d : Controller) : Prop :=
  d.auxInt = false ∧ d.busy = c.busy ∧ d.regs[0x17] = c.regs[0x17]

/-- `d` is `c` one poll after `status` has been posted with delay `delay`. -/
def Controller.Waits (c d : Controller) (status : Byte) (delay : Nat) : Prop :=
  c.SameTransfer d ∧ d.queue[c.qIndex]? = some { status := status, count := delay - 1 } ∧
    (delay ≤ 1 → d.auxInt = true ∧ d.busy = false ∧ d.regs[0x17] = status) ∧ (1 < delay → c.Silent d)

namespace Controller.Quiet

variable {c : Controller}

theorem silent (h : c.Quiet) : c.SameTransfer c.pollOnce ∧ c.Silent c.pollOnce := by
  refine ⟨⟨c.pollOnce_phase, c.tc_pollOnce, c.target_pollOnce⟩, ?_⟩
  rw [h.pollOnce]
  exact ⟨h.auxInt, rfl, rfl⟩

/-- The mirror starts over. -/
theorem restarted (h : c.Quiet) : { c with scratchOff := 0 }.Quiet := ⟨h.auxInt, h.notDue, h.qIndex⟩

theorem waits (h : c.Quiet) (status : Byte) (delay : Nat) :
    c.Waits (c.awaits status (max 1 delay)).pollOnce status delay := by
  have hpoll := h.pollOnce_awaits status (max 1 delay)
  have hslot : (c.awaits status (max 1 delay)).countedDown.queue[c.qIndex]? =
      some { status := status, count := delay - 1 } := by
    have hcount : max 1 delay - 1 = delay - 1 := by omega
    simp [countedDown, awaits, pollSlot, h.qIndex, hcount]
  refine ⟨⟨pollOnce_phase _, tc_pollOnce _, target_pollOnce _⟩, ?_, fun hdue => ?_, fun hlater => ?_⟩
  · rw [hpoll]
    split <;> exact hslot
  · rw [hpoll, if_pos (by omega)]
    exact ⟨rfl, rfl, reg_setReg_same _ SCSI_STATUS status⟩
  · rw [hpoll, if_neg (by omega)]
    exact ⟨h.auxInt, rfl, rfl⟩

end Controller.Quiet

end Sys2Proof.Machine
end

section
/-! What the host sees of a callback one poll later (43_transfer_callbacks.md R240 to R248; 45_dispatch.md R316), where
no other status is due. -/

namespace Sys2Proof.Machine

namespace State.Current

variable {s : State} {i : Fin 8} {t : Target} (h : s.Current i t) (hq : s.ctl.Quiet)
include h hq

/-! ### transferIn (R248) -/

theorem in_dataEnds (hp : s.ctl.phase = 0x44 ∨ s.ctl.phase = 0x45) (hle : t.dataLength ≤ t.offset) :
    (s.transferIn false).1.ctl.pollOnce.Arrives 0x46 (if s.ctl.tc = 0 then 0x1B else 0x4B) := by
  rw [h.transferIn_eq, if_pos hp, if_neg (Nat.not_lt.mpr hle)]
  exact hq.arrives h.curTarget _ _ t.begin rfl

theorem in_dataGoesOn (hp : s.ctl.phase = 0x44 ∨ s.ctl.phase = 0x45) (hlt : t.offset < t.dataLength) :
    s.ctl.Waits (s.transferIn false).1.ctl.pollOnce (if t.direction = .toHost then 0x19 else 0x18)
      s.ctl.cfg.tRetryIn := by
  rw [h.transferIn_eq, if_pos hp, if_pos hlt]
  exact hq.restarted.waits _ s.ctl.cfg.tRetryIn

theorem in_status (hp : s.ctl.phase = 0x46 ∨ s.ctl.phase = 0x47) :
    (s.transferIn false).1.ctl.pollOnce.Arrives 0x50 0x1F := by
  have hdata : ¬(s.ctl.phase = 0x44 ∨ s.ctl.phase = 0x45) := by obtain hp | hp := hp <;> rw [hp] <;> decide
  rw [h.transferIn_eq, if_neg hdata, if_pos hp]
  exact hq.arrives h.curTarget _ _ t.begin rfl

theorem in_messageEnds (hp : s.ctl.phase = 0x50) (hle : t.dataLength ≤ t.offset) :
    (s.transferIn false).1.ctl.pollOnce.Arrives 0x60 0x85 ∧ (s.transferIn false).1.ctl.pollOnce.selected = false := by
  have hdisc : { s.ctl with selected := false }.Quiet := ⟨hq.auxInt, hq.notDue, hq.qIndex⟩
  have hcur : { s.ctl with selected := false }.curTarget = some i := h.curTarget
  rw [h.transferIn_eq, hp, if_neg (by decide), if_neg (by decide), if_pos rfl, if_neg (Nat.not_lt.mpr hle)]
  exact ⟨hdisc.arrives hcur _ _ t.begin rfl, Controller.pollOnce_selected _⟩

theorem in_messageGoesOn (hp : s.ctl.phase = 0x50) (hlt : t.offset < t.dataLength) :
    s.ctl.Waits (s.transferIn false).1.ctl.pollOnce 0x1F s.ctl.cfg.tRetryIn := by
  rw [h.transferIn_eq, hp, if_neg (by decide), if_neg (by decide), if_pos rfl, if_pos hlt]
  exact hq.restarted.waits _ s.ctl.cfg.tRetryIn

theorem in_otherwise (hp : s.ctl.phase ∉ ([0x44, 0x45, 0x46, 0x47, 0x50] : List Byte)) :
    s.ctl.SameTransfer (s.transferIn false).1.ctl.pollOnce ∧ s.ctl.Silent (s.transferIn false).1.ctl.pollOnce := by
  simp only [List.mem_cons, List.not_mem_nil, or_false, not_or] at hp
  obtain ⟨h44, h45, h46, h47, h50⟩ := hp
  rw [h.transferIn_eq, if_neg (not_or.mpr ⟨h44, h45⟩), if_neg (not_or.mpr ⟨h46, h47⟩), if_neg h50]
  exact hq.restarted.silent

/-! ### transferOut (R240 to R245) -/

theorem out_message (hp : s.ctl.phase.toNat < 0x20) : s.transferOut.1.ctl.pollOnce.Arrives 0x20 0x1A := by
  obtain ⟨b, n, -, hb⟩ := s.exists_orDraw (Memory.find s.ctl.scratch 0)
  rw [h.transferOut_message hp, h.messageSent hb]
  exact hq.arrives h.curTarget _ _ _ rfl

/-- Which of the three ends is the target's to say (logs 8, 11). -/
theorem out_command (hp : s.ctl.phase = 0x30) :
    s.transferOut.1.ctl.pollOnce.Arrives 0x45 0x18 ∨ s.transferOut.1.ctl.pollOnce.Arrives 0x45 0x19 ∨
      s.transferOut.1.ctl.pollOnce.Arrives 0x46 0x1B := by
  rw [h.transferOut_command hp]
  by_cases hwaits : (s.analyzeAnswer t).direction = .toDevice ∧ 0 < (s.analyzeAnswer t).dataLength
  case pos =>
    rw [h.commandSent_waits hwaits.1 hwaits.2]
    exact .inl (hq.arrives h.curTarget _ _ _ rfl)
  case neg =>
    rw [h.commandSent_executes hwaits rfl]
    split
    · exact .inr (.inl (hq.arrives h.curTarget _ _ _ rfl))
    · exact .inr (.inr (hq.arrives h.curTarget _ _ _ rfl))

/-- All the data has been sent: the command runs, and its status is the target's answer (log 8). -/
theorem out_dataEnds (hp : s.ctl.phase = 0x44 ∨ s.ctl.phase = 0x45) (hle : t.dataLength ≤ t.offset)
    (hout : t.direction.isOut = true) :
    s.transferOut.1.ctl.pollOnce.Arrives 0x46 0x1B ∧
      s.transferOut.1.ctl.pollOnce.target = some (t.executed s.draws).begin := by
  rw [h.transferOut_data hp, if_neg (Nat.not_lt.mpr hle), State.dataSent, if_pos hout, h.execute_advance]
  exact ⟨hq.arrives h.curTarget _ _ _ rfl,
    (Controller.target_pollOnce _).trans (Controller.target_advancedTo h.curTarget ..)⟩

theorem out_dataGoesOn (hp : s.ctl.phase = 0x44 ∨ s.ctl.phase = 0x45) (hlt : t.offset < t.dataLength) :
    s.ctl.Waits s.transferOut.1.ctl.pollOnce 0x18 s.ctl.cfg.tRetryOut := by
  rw [h.transferOut_data hp, if_pos hlt, State.upd_ctl, Controller.post_eq_awaits]
  exact hq.waits _ s.ctl.cfg.tRetryOut

theorem out_otherwise (hmessage : 0x20 ≤ s.ctl.phase.toNat) (hp : s.ctl.phase ∉ ([0x30, 0x44, 0x45] : List Byte)) :
    s.ctl.SameTransfer s.transferOut.1.ctl.pollOnce ∧ s.ctl.Silent s.transferOut.1.ctl.pollOnce := by
  simp only [List.mem_cons, List.not_mem_nil, or_false, not_or] at hp
  obtain ⟨h30, h44, h45⟩ := hp
  rw [h.transferOut_otherwise (Nat.not_lt.mpr hmessage) h30 (not_or.mpr ⟨h44, h45⟩)]
  exact hq.silent

end State.Current

end Sys2Proof.Machine
end

section
/-! A tick that drives an open transfer (45_dispatch.md R316; 44_dma_engines.md R263): the pump, then the callback. -/

namespace Sys2Proof.Machine

/-! ### After the pump -/

/-- What a pump leaves alone of the target whose bytes it moves, and how far it takes it. -/
structure Target.MovedOn (t u : Target) (n : Nat) : Prop where
  offset         : u.offset = t.offset + n
  direction      : u.direction = t.direction
  dataLength     : u.dataLength = t.dataLength
  executeReplies : u.executeReplies = t.executeReplies

theorem State.Moves.movedOn {s : State} {i : Fin 8} {t : Target} {bs : List Byte} {g : Cargo} (h : s.Moves i t bs g) :
    t.MovedOn g.target bs.length := by
  by_cases hin : t.direction = .toHost
  case pos => rw [h.inbound_target hin]; exact ⟨rfl, rfl, rfl, rfl⟩
  case neg =>
    rw [h.outbound_target hin]
    by_cases hc : t.direction = .command
    · rw [Target.sends_eq_of_command hc]; exact ⟨rfl, rfl, rfl, rfl⟩
    · rw [Target.sends_eq_of_data hc]; exact ⟨rfl, rfl, rfl, rfl⟩

/-- The pump has run and the transfer is closed (R316). -/
def State.drained (s : State) : State := s.pump.1.upd fun c => { c with dataAvail := .closed }

/-- `v` is `s` once a pump has moved `n` bytes of target `t` and the transfer has closed: the target stands there as
`u`, and beside the counter the host's view is the same. -/
structure State.Drained (s v : State) (i : Fin 8) (t u : Target) (n : Nat) : Prop where
  current : v.Current i u
  target  : t.MovedOn u n
  phase   : v.ctl.phase = s.ctl.phase
  tc      : v.ctl.tc.toNat = s.ctl.tc.toNat - n
  cfg     : v.ctl.cfg = s.ctl.cfg
  latch   : v.ctl.reg SCSI_STATUS = s.ctl.reg SCSI_STATUS
  auxInt  : v.ctl.auxInt = s.ctl.auxInt
  busy    : v.ctl.busy = s.ctl.busy
  queue   : v.ctl.queue = s.ctl.queue
  qIndex  : v.ctl.qIndex = s.ctl.qIndex
  closed  : v.ctl.dataAvail = .closed

section
variable (s : State) (i : Fin 8) (d : Direction) (n : Nat) (g : Cargo)

@[simp] theorem State.pumped_auxInt : (s.pumped i d n g).ctl.auxInt = s.ctl.auxInt := by
  unfold State.pumped; split <;> rfl
@[simp] theorem State.pumped_busy : (s.pumped i d n g).ctl.busy = s.ctl.busy := by unfold State.pumped; split <;> rfl
@[simp] theorem State.pumped_queue : (s.pumped i d n g).ctl.queue = s.ctl.queue := by unfold State.pumped; split <;> rfl
@[simp] theorem State.pumped_qIndex : (s.pumped i d n g).ctl.qIndex = s.ctl.qIndex := by
  unfold State.pumped; split <;> rfl

/-- Of the registers a pump writes the counter alone. -/
theorem State.pumped_regs :
    (s.pumped i d n g).ctl.regs = (s.ctl.setTc (BitVec.ofNat 24 (s.ctl.tc.toNat - n))).regs := by
  unfold State.pumped; split <;> rfl

theorem State.pumped_latch : (s.pumped i d n g).ctl.reg SCSI_STATUS = s.ctl.reg SCSI_STATUS :=
  (Controller.reg_congr (s.pumped_regs i d n g) _).trans
    (s.ctl.reg_setTc_ne (by decide) (by decide) (by decide) _)

end

theorem State.Ready.drained {s : State} {i : Fin 8} {t : Target} (h : s.Ready i t)
    (hdir : s.ctl.cfg.variant = .gvpS2 → s.ctl.gcntr.getLsbD 4 = t.direction.isOut) :
    s.pump.2 = true ∧ ∃ u, s.Drained s.drained i t u (pumpBytes s.ctl t) := by
  obtain ⟨bs, g, hmoves, hlen, hpump⟩ := h.pump hdir
  have hdrained : s.drained = (s.pumped i t.direction bs.length g).upd fun c => { c with dataAvail := .closed } := by
    rw [State.drained, hpump]
  refine ⟨by rw [hpump], g.target, ?_⟩
  rw [← hlen, hdrained]
  exact {
    current := ⟨(s.pumped_curTarget ..).trans h.current.curTarget, by simp⟩
    target := hmoves.movedOn
    phase := s.pumped_phase ..
    tc := s.pumped_tc_toNat ..
    cfg := s.pumped_cfg ..
    latch := s.pumped_latch ..
    auxInt := s.pumped_auxInt ..
    busy := s.pumped_busy ..
    queue := s.pumped_queue ..
    qIndex := s.pumped_qIndex ..
    closed := rfl }

/-! ### What the host sees of it -/

namespace State.Drained

variable {s v : State} {i : Fin 8} {t u : Target} {n : Nat} (h : s.Drained v i t u n) {d : Controller}
include h

theorem quiet (hok : s.ctl.ok) (hint : s.ctl.auxInt = false) (hdue : ∀ x ∈ s.ctl.queue, x.count ≠ 1) : v.ctl.Quiet := by
  obtain ⟨-, ⟨hlen, hidx⟩, -⟩ := hok
  exact ⟨h.auxInt.trans hint, h.queue ▸ hdue, by rw [h.queue, h.qIndex, hlen]; exact hidx⟩

theorem stays (hd : v.ctl.SameTransfer d) :
    d.regs[0x10] = s.ctl.regs[0x10] ∧ d.tc.toNat = s.ctl.tc.toNat - n ∧
      ∃ t', d.target = some t' ∧ t'.offset = t.offset + n := by
  obtain ⟨hphase, htc, htarget⟩ := hd
  exact ⟨hphase.trans h.phase, htc ▸ h.tc, u, htarget.trans h.current.target, h.target.offset⟩

theorem silent (hd : v.ctl.Silent d) :
    d.auxInt = false ∧ d.busy = s.ctl.busy ∧ d.regs[0x17] = s.ctl.regs[0x17] := by
  obtain ⟨hint, hbusy, hlatch⟩ := hd
  exact ⟨hint, hbusy.trans h.busy, hlatch.trans h.latch⟩

theorem retries {status : Byte} {delay : Nat} (hd : v.ctl.Waits d status delay) :
    (d.regs[0x10] = s.ctl.regs[0x10] ∧ d.tc.toNat = s.ctl.tc.toNat - n ∧
      ∃ t', d.target = some t' ∧ t'.offset = t.offset + n) ∧
    d.queue[s.ctl.qIndex]? = some { status := status, count := delay - 1 } ∧
    (delay ≤ 1 → d.auxInt = true ∧ d.busy = false ∧ d.regs[0x17] = status) ∧
    (1 < delay → d.auxInt = false ∧ d.busy = s.ctl.busy ∧ d.regs[0x17] = s.ctl.regs[0x17]) := by
  obtain ⟨hsame, hslot, harrives, hsilent⟩ := hd
  exact ⟨h.stays hsame, h.qIndex ▸ hslot, harrives, fun hlater => h.silent (hsilent hlater)⟩

theorem goesOn (hlt : t.offset + n < t.dataLength) : u.offset < u.dataLength := by
  rwa [h.target.offset, h.target.dataLength]

theorem ends (hle : t.dataLength ≤ t.offset + n) : u.dataLength ≤ u.offset := by
  rwa [h.target.offset, h.target.dataLength]

/-- The counter has reached zero exactly where the pump has moved as many bytes. -/
theorem tc_eq_zero_iff : v.ctl.tc = 0 ↔ ¬n < s.ctl.tc.toNat := by
  rw [← BitVec.toNat_inj, h.tc, not_lt]
  exact Nat.sub_eq_zero_iff_le

/-- The status of an inbound end, by what is left of the counter (R248). -/
theorem dataEnd_status (hin : t.direction = .toHost) :
    (if t.direction = .toHost ∧ n < s.ctl.tc.toNat then 0x4B else 0x1B : Byte) =
      if v.ctl.tc = 0 then 0x1B else 0x4B := by
  by_cases hleft : n < s.ctl.tc.toNat
  · rw [if_pos ⟨hin, hleft⟩, if_neg fun hzero => h.tc_eq_zero_iff.mp hzero hleft]
  · rw [if_neg fun e => hleft e.2, if_pos (h.tc_eq_zero_iff.mpr hleft)]

end State.Drained

/-! ### The callback (R316) -/

/-- The callback of direction `d`. -/
def State.callback (s : State) (d : Direction) : State :=
  if d = .toHost then (s.transferIn false).1 else s.transferOut.1

theorem State.callback_in (s : State) {d : Direction} (h : d = .toHost) : s.callback d = (s.transferIn false).1 :=
  if_pos h

theorem State.callback_out (s : State) {d : Direction} (h : d ≠ .toHost) : s.callback d = s.transferOut.1 :=
  if_neg h

/-- It is the meaning of MSG_CONT_IN or MSG_CONT_OUT (R307, R308). -/
theorem exec_callback (s : State) (d : Direction) :
    exec (if d = .toHost then .msgContIn 0 0 else .msgContOut 0 0) s = .next (s.callback d) := by
  unfold State.callback
  split <;> rfl

theorem State.SameMemory.callback (s : State) (d : Direction) : s.SameMemory (s.callback d) := by
  unfold State.callback
  split
  · exact transferIn s false
  · exact transferOut s

theorem State.Current.transferOut_dataAvail {s : State} {i : Fin 8} {t : Target} (h : s.Current i t) :
    s.transferOut.1.ctl.dataAvail = s.ctl.dataAvail := by
  by_cases hmessage : s.ctl.phase.toNat < 0x20
  · obtain ⟨b, n, -, hb⟩ := s.exists_orDraw (Memory.find s.ctl.scratch 0)
    rw [h.transferOut_message hmessage, h.messageSent hb]
    rfl
  by_cases hcommand : s.ctl.phase = 0x30
  · rw [h.transferOut_command hcommand]
    by_cases hwaits : (s.analyzeAnswer t).direction = .toDevice ∧ 0 < (s.analyzeAnswer t).dataLength
    · rw [h.commandSent_waits hwaits.1 hwaits.2]; rfl
    · rw [h.commandSent_executes hwaits rfl]
      split <;> rfl
  by_cases hdata : s.ctl.phase = 0x44 ∨ s.ctl.phase = 0x45
  · rw [h.transferOut_data hdata]
    split
    · rfl
    · unfold State.dataSent
      split
      · rw [h.execute_advance]; rfl
      · rw [h.begin_advance]; rfl
  · rw [h.transferOut_otherwise hmessage hcommand hdata]

/-- A callback neither opens nor closes a transfer. -/
theorem State.Current.callback_dataAvail {s : State} {i : Fin 8} {t : Target} (h : s.Current i t) (d : Direction) :
    (s.callback d).ctl.dataAvail = s.ctl.dataAvail := by
  unfold State.callback
  split
  case isTrue => rw [h.transferIn_eq]; split_ifs <;> rfl
  case isFalse => exact h.transferOut_dataAvail

theorem State.dmaDrive_pumps {s : State} {t : Target} (ht : s.target = some t) (hdir : t.direction ≠ .nothing)
    (hpump : s.pump.2 = true) : s.dmaDrive = s.drained.callback t.direction := by
  simp only [State.dmaDrive, ht, if_neg hdir, hpump, if_true, Direction.isIn_iff]
  rfl

theorem Direction.isOut_eq {d : Direction} (h : d ≠ .nothing) : d.isOut = decide (d ≠ .toHost) := by
  cases d with
  | nothing => exact absurd rfl h
  | _ => rfl

/-- Settles O51: the tick is the pump, the callback, the poll and the recompute; what the host sees is the callback's
arm one poll later, told of the state before the pump by `State.Drained`. -/
theorem tickDrivesAnOpenTransfer : Obligations.TickDrivesAnOpenTransfer := by
  intro s t hok hopen hstarted ht hdir hboard hbit
  obtain ⟨i, hcurrent⟩ := State.exists_current ht
  obtain ⟨hpump, u, hd⟩ := State.Ready.drained (s := s) ⟨hcurrent, hdir, hboard, hok⟩ fun hv =>
    (hbit hv).trans (Direction.isOut_eq hdir).symm
  have htick : s.tick = ((s.drained.callback t.direction).upd Controller.pollOnce).recompute := by
    rw [State.tick, State.dmaContinue_open hopen hstarted, State.dmaDrive_pumps ht hdir hpump]
  have hmemory := State.SameMemory.callback s.drained t.direction
  dsimp only
  rw [htick]
  refine ⟨⟨_, exec_callback s.drained t.direction, rfl⟩, hmemory.mem,
    (Controller.pollOnce_sram _).trans hmemory.sram,
    (Controller.pollOnce_dataAvail _).trans ((hd.current.callback_dataAvail _).trans hd.closed), fun hint hdue => ?_⟩
  have hq := hd.quiet hok hint hdue
  have hin (h : t.direction = .toHost) := s.drained.callback_in h
  have hout (h : ¬t.direction = .toHost) := s.drained.callback_out h
  refine ⟨fun ho hp => ?message, fun ho hp => ?command, fun hp hle => ?dataEnds, fun hp hlt => ⟨fun hi => ?dataIn,
    fun ho => ?dataOut⟩, fun hi hp => ?status, fun hi hp hle => ?messageEnds, fun hi hp hlt => ?messageGoesOn,
    fun hp => ?otherwise⟩
  case message =>
    rw [hout ho]
    exact hd.current.out_message hq (hd.phase ▸ hp)
  case command =>
    rw [hout ho]
    exact hd.current.out_command hq (hd.phase.trans hp)
  case dataEnds =>
    have hp : s.drained.ctl.phase = 0x44 ∨ s.drained.ctl.phase = 0x45 := hd.phase ▸ hp
    have hle := hd.ends hle
    by_cases hi : t.direction = .toHost
    case pos =>
      rw [hin hi, hd.dataEnd_status hi]
      exact ⟨hd.current.in_dataEnds hq hp hle, fun _ _ ho => absurd hi ho⟩
    case neg =>
      have hu : u.direction ≠ .toHost := hd.target.direction ▸ hi
      have hexec : u.direction.isOut = true := by
        rw [hd.target.direction, Direction.isOut_eq hdir]
        exact decide_eq_true hi
      obtain ⟨harrives, htarget⟩ := hd.current.out_dataEnds hq hp hle hexec
      rw [hout hi, if_neg fun e => hi e.1]
      refine ⟨harrives, fun r t' _ hr ht' => ?_⟩
      obtain rfl : (u.executed s.drained.draws).begin = t' := Option.some.inj (htarget.symm.trans ht')
      rw [Target.executed_of_ne_toHost hu, Target.executeAnswer, hd.target.executeReplies, hr]
      rfl
  case dataIn =>
    rw [hin hi]
    have hwaits := hd.current.in_dataGoesOn hq (hd.phase ▸ hp) (hd.goesOn hlt)
    rw [hd.target.direction, if_pos hi, hd.cfg] at hwaits
    exact hd.retries hwaits
  case dataOut =>
    rw [hout ho]
    exact hd.retries (hd.cfg ▸ hd.current.out_dataGoesOn hq (hd.phase ▸ hp) (hd.goesOn hlt))
  case status =>
    rw [hin hi]
    exact hd.current.in_status hq (hd.phase ▸ hp)
  case messageEnds =>
    rw [hin hi]
    exact hd.current.in_messageEnds hq (hd.phase.trans hp) (hd.ends hle)
  case messageGoesOn =>
    rw [hin hi]
    exact hd.retries (hd.cfg ▸ hd.current.in_messageGoesOn hq (hd.phase.trans hp) (hd.goesOn hlt))
  case otherwise =>
    obtain ⟨hi, hp⟩ | ⟨ho, hmessage, hp⟩ := hp
    · rw [hin hi]
      obtain ⟨hsame, hsilent⟩ := hd.current.in_otherwise hq (hd.phase ▸ hp)
      exact ⟨hd.stays hsame, hd.silent hsilent⟩
    · rw [hout ho]
      obtain ⟨hsame, hsilent⟩ := hd.current.out_otherwise hq (hd.phase ▸ hmessage) (hd.phase ▸ hp)
      exact ⟨hd.stays hsame, hd.silent hsilent⟩

end Sys2Proof.Machine
end

section
/-! The interrupt line (60_exceptions.md R333, R350 to R355): what a recompute makes of each variant's requests and
enables, and that every step leaves the line agreeing with the state. -/

namespace Sys2Proof.Machine

/-- Settles O6: `Acts.exec` has every constructor's next state. -/
theorem everyInstructionCompletes : Obligations.EveryInstructionCompletes := by
  intro i s
  obtain ⟨t, ht, -⟩ := Acts.exec i s
  exact ⟨t, ht⟩

/-! ### The folding and the predicates, by the variant (R351 to R354) -/

namespace Controller

variable (c : Controller)

theorem foldedIstr_eq :
    c.foldedIstr =
      if (c.cfg.variant = .cbmDmac ∨ c.cfg.variant = .cbmSdmac) ∧ (c.auxInt = true ∨ c.xtIrq = true)
      then c.istr ||| 0x40 else c.istr := by
  cases hv : c.cfg.variant <;>
    simp [foldedIstr, setBits, ISTR_INTS, numbers, hv, or_comm (a := c.xtIrq = true)]

theorem foldedGcntr_eq :
    c.foldedGcntr = if c.cfg.variant = .gvpS2 ∧ c.auxInt = true then c.gcntr ||| 0x0002 else c.gcntr := by
  cases hv : c.cfg.variant <;> simp [foldedGcntr, setBits, GCNTR_G_PEND, numbers, hv]

/-- A request of the chip or of the XT block reaches the predicate through the folded INTS bit (R352). -/
theorem pred_foldLatch_commodore (h : c.cfg.variant = .cbmDmac ∨ c.cfg.variant = .cbmSdmac) :
    c.foldLatch.pred =
      (c.cntr.getLsbD 4 && (c.auxInt || c.xtIrq || c.istr.getLsbD 6 || c.istr.getLsbD 5)) := by
  have hpred : c.foldLatch.pred = (hasBit c.cntr CNTR_INTEN && hasBit c.foldedIstr (ISTR_INTS ||| ISTR_E_INT)) := by
    obtain h | h := h <;> simp only [pred, foldLatch, h]
  rw [hpred, hasBit_inten, hasBit_requests, foldedIstr_eq]
  cases c.auxInt <;> cases c.xtIrq <;> simp [h]

/-- A request of the chip reaches the predicate through the folded G_PEND bit (R353). -/
theorem pred_foldLatch_gvpS2 (h : c.cfg.variant = .gvpS2) :
    c.foldLatch.pred = ((c.auxInt || c.gcntr.getLsbD 1) && c.gcntr.getLsbD 3) := by
  have hpred : c.foldLatch.pred = (hasBit c.foldedGcntr GCNTR_G_PEND && hasBit c.foldedGcntr GCNTR_G_INTEN) := by
    simp only [pred, foldLatch, h]
  have hpend (v : Half) : hasBit v GCNTR_G_PEND = v.getLsbD 1 := hasBit_twoPow v 1
  have hinten (v : Half) : hasBit v GCNTR_G_INTEN = v.getLsbD 3 := hasBit_twoPow v 3
  rw [hpred, hpend, hinten, foldedGcntr_eq]
  cases c.auxInt <;> simp [h]

/-- Nothing is folded on Series I, whose predicate reads the flags (R351). -/
theorem pred_foldLatch_gvpS1 (h : c.cfg.variant = .gvpS1) :
    c.foldLatch.pred = (decide (c.dmaActive ≠ .stopped) && c.auxInt) := by
  simp only [pred, foldLatch, h, dmaStarted]
  cases c.dmaActive <;> rfl

/-- The pure-XT board requests nothing (R354). -/
theorem pred_foldLatch_none (h : c.cfg.variant = .none) : c.foldLatch.pred = false := by
  simp only [pred, foldLatch, h]

end Controller

/-- Settles O52: the folded controllers are `foldLatch`'s, and the predicate after the folding goes by the variant. -/
theorem lineIsTheOrOfThePredicates : Obligations.LineIsTheOrOfThePredicates := by
  intro s folded
  have hfold : Controller.foldLatch = folded := by
    funext c
    rw [Controller.foldLatch, c.foldedIstr_eq, c.foldedGcntr_eq]
  have hline : s.recompute.irqLine = s.controllers.any fun c => c.enabled && c.foldLatch.pred := by
    simp only [State.recompute, State.controllers, List.any_cons, List.any_map, Function.comp_def]
    rfl
  rw [← hfold]
  refine congrArg (fun line => { s.recompute with irqLine := line }) (hline.trans ?_)
  congr 1
  funext c
  split
  next h => rw [c.pred_foldLatch_commodore (.inl h)]
  next h => rw [c.pred_foldLatch_commodore (.inr h)]
  next h => rw [c.pred_foldLatch_gvpS1 h]
  next h => rw [c.pred_foldLatch_gvpS2 h]
  next h => rw [c.pred_foldLatch_none h]

/-! ### What the line reads -/

/-- `d` has the fields of `c` that the folding and the predicates read (R351 to R354): the flag DmaActive is read on
Series I only. -/
structure Controller.SameLine (c d : Controller) : Prop where
  cfg       : d.cfg = c.cfg
  enabled   : d.enabled = c.enabled
  auxInt    : d.auxInt = c.auxInt
  xtIrq     : d.xtIrq = c.xtIrq
  istr      : d.istr = c.istr
  cntr      : d.cntr = c.cntr
  gcntr     : d.gcntr = c.gcntr
  dmaActive : c.cfg.variant = .gvpS1 → d.dmaActive = c.dmaActive

namespace Controller.SameLine

variable {c d : Controller} (h : c.SameLine d)
include h

theorem folded (hc : c.foldLatch = c) : d.foldLatch = d := by
  have hi : c.foldedIstr = c.istr := congrArg Controller.istr hc
  have hg : c.foldedGcntr = c.gcntr := congrArg Controller.gcntr hc
  have hi : d.foldedIstr = d.istr := by
    simpa only [foldedIstr, h.cfg, h.auxInt, h.xtIrq, h.istr] using hi
  have hg : d.foldedGcntr = d.gcntr := by
    simpa only [foldedGcntr, h.cfg, h.auxInt, h.gcntr] using hg
  rw [foldLatch, hi, hg]

theorem contributes : d.contributes = c.contributes := by
  simp only [Controller.contributes, pred, dmaStarted, h.cfg, h.enabled, h.auxInt, h.istr, h.cntr, h.gcntr]
  cases hv : c.cfg.variant with
  | gvpS1 => rw [h.dmaActive hv]
  | cbmDmac | cbmSdmac | gvpS2 | none => rfl

end Controller.SameLine

namespace State.LineOk

variable {s : State}

/-- The order of the controllers is no part of it. -/
theorem of_perm {t : State} (h : s.LineOk) (hp : t.controllers.Perm s.controllers) (hl : t.irqLine = s.irqLine) :
    t.LineOk := by
  obtain ⟨hfold, hline⟩ := s.lineOk_iff.mp h
  refine t.lineOk_iff.mpr ⟨fun c hc => hfold c (hp.mem_iff.mp hc), ?_⟩
  rw [hl, hline, hp.any_eq]

theorem focus {s' : State} {slot : Nat} (h : s.LineOk) (hf : s.focus slot = some s') : s'.LineOk :=
  h.of_perm (State.focus_controllers_perm hf) (by rw [State.focus_frame hf])

/-- A change of nothing the line reads. -/
theorem upd {f : Controller → Controller} (h : s.LineOk) (hf : s.ctl.SameLine (f s.ctl)) : (s.upd f).LineOk := by
  obtain ⟨hfold, hline⟩ := s.lineOk_iff.mp h
  obtain ⟨hctl, hothers⟩ := List.forall_mem_cons.mp hfold
  refine (s.upd f).lineOk_iff.mpr ⟨List.forall_mem_cons.mpr ⟨hf.folded hctl, hothers⟩, ?_⟩
  show s.irqLine = ((f s.ctl).contributes || s.others.any Controller.contributes)
  rw [hline, hf.contributes, State.controllers, List.any_cons]

/-- It speaks of the controllers and the line alone. -/
theorem rest {t : State} (h : s.LineOk) (hctl : t.ctl = s.ctl) (hothers : t.others = s.others)
    (hl : t.irqLine = s.irqLine) : t.LineOk :=
  h.of_perm (by rw [State.controllers, State.controllers, hctl, hothers]) hl

theorem draw (h : s.LineOk) (n : Nat) : { s with draws := n }.LineOk := h.rest rfl rfl rfl

theorem orDraw (h : s.LineOk) (v : Option Byte) : (s.orDraw v).1.LineOk := by
  unfold State.orDraw
  split
  · exact h
  · exact h.draw _

/-! ### The chip's registers (40_register_access.md) -/

theorem enqueue (h : s.LineOk) (w : Word) : ∀ t ∈ s.enqueue w, t.LineOk := by
  unfold State.enqueue
  split
  · rintro t ⟨⟩
    exact h.upd (by constructor <;> simp)
  · exact fun t ht => nomatch ht

theorem pioClose (h : s.LineOk) (ended : Bool) (mtype : Half) : ∀ t ∈ s.pioClose ended mtype, t.LineOk := by
  unfold State.pioClose
  split
  · exact (h.upd (by constructor <;> simp)).enqueue _
  · rintro t ⟨⟩
    exact h.upd (by constructor <;> simp)

theorem byteMoved (h : s.LineOk) (t : Target) (b : Byte) : (s.upd fun c => c.byteMoved t b).LineOk :=
  h.upd (by constructor <;> simp [Controller.byteMoved])

theorem readData (h : s.LineOk) : ∀ r ∈ s.readData, r.1.LineOk := by
  unfold State.readData
  split
  · rintro r ⟨⟩; exact h
  next t _ =>
    split
    · rintro r ⟨⟩; exact h
    · obtain ⟨n, hn⟩ := Acts.recv_fst s t s.ctl.phase
      simp only [Controller.byteMoved_eq_read, hn, Option.mem_def, Option.map_eq_some_iff]
      rintro r ⟨u, hu, rfl⟩
      exact ((h.draw n).byteMoved _ _).pioClose _ _ u hu

theorem writeData (h : s.LineOk) (v : Byte) : ∀ t ∈ s.writeData v, t.LineOk := by
  have h0 : (s.upd fun c => c.setReg DATA v).LineOk := h.upd (by constructor <;> simp)
  unfold State.writeData
  dsimp only
  split
  · rintro t ⟨⟩; exact h0
  next t _ =>
    split
    · rintro t ⟨⟩; exact h0
    · rw [State.upd_upd]
      simp only [Controller.byteMoved_eq_write]
      exact (h.byteMoved _ v).pioClose _ _

theorem writeCommand (h : s.LineOk) (v : Byte) : ∀ t ∈ s.writeCommand v, t.LineOk :=
  (h.upd (by constructor <;> simp)).enqueue _

theorem readRegister (h : s.LineOk) (p : RegNum) : ∀ r ∈ s.readRegister p, r.1.LineOk := by
  unfold State.readRegister
  split_ifs
  · rintro r ⟨⟩; exact h
  · rintro r ⟨⟩; exact State.recompute_lineOk _
  · exact h.readData
  · rintro r ⟨⟩; exact h

theorem writeRegister (h : s.LineOk) (p : RegNum) (v : Byte) : ∀ t ∈ s.writeRegister p v, t.LineOk := by
  unfold State.writeRegister
  split_ifs
  · rintro t ⟨⟩; exact h
  · rintro t ⟨⟩; exact h.upd (by constructor <;> simp)
  · exact h.writeCommand v
  · exact h.writeData v
  · rintro t ⟨⟩; exact h.upd (by constructor <;> simp)

theorem advancePointer (h : s.LineOk) (afterWrite : Bool) : (s.upd fun c => c.advancePointer afterWrite).LineOk := by
  refine h.upd ?_
  unfold Controller.advancePointer
  split_ifs <;> constructor <;> simp

theorem datRead (h : s.LineOk) : ∀ r ∈ s.datRead, r.1.LineOk := by
  simp only [State.datRead, Option.mem_def, Option.map_eq_some_iff]
  rintro r ⟨u, hu, rfl⟩
  exact (h.readRegister _ u hu).advancePointer false

theorem datWrite (h : s.LineOk) (v : Byte) : ∀ t ∈ s.datWrite v, t.LineOk := by
  simp only [State.datWrite, Option.mem_def, Option.map_eq_some_iff]
  rintro t ⟨u, hu, rfl⟩
  exact (h.writeRegister _ v u hu).advancePointer true

end State.LineOk

/-! ### The board's ports (44_dma_engines.md) -/

/-- Where the answer is a next state, the line agrees with it. -/
def PortAnswer.LineOk (r : PortAnswer) : Prop :=
  match r with
  | .held => True
  | .refused _ => True
  | .done t _ => t.LineOk

namespace State.LineOk

variable {s : State}

theorem strobe (h : s.LineOk) (a : Access) : (strobe s a).LineOk := by
  cases a with
  | read => exact h.draw _
  | write v => exact h

theorem unnamedAccess (h : s.LineOk) (a : Access) : (unnamedAccess s a).LineOk := by
  cases a with
  | read => exact h
  | write v => exact h

/-- A variant without a port is none of a board that has it. -/
theorem ne_of_hasPort {v w : Variant} {p : Port} (hv : hasPort v p = true) (hw : hasPort w p = false) : v ≠ w := by
  rintro rfl
  exact Bool.false_ne_true (hw.symm.trans hv)

/-- The Commodore boards' predicates do not read DmaActive (R352), so R285 and R286 have no recompute. -/
theorem dmaActive (h : s.LineOk) (hv : s.ctl.cfg.variant ≠ .gvpS1) (v : DmaActive) :
    (s.upd fun c => { c with dmaActive := v }).LineOk :=
  h.upd ⟨rfl, rfl, rfl, rfl, rfl, rfl, rfl, fun h1 => absurd h1 hv⟩

theorem nextSram (h : s.LineOk) : (s.upd Controller.nextSram).LineOk :=
  h.upd (by constructor <;> simp [Controller.nextSram])

theorem portRead (h : s.LineOk) {p : Port} (hp : hasPort s.ctl.cfg.variant p = true) : (s.portRead p).LineOk := by
  cases p with
  | dat =>
    simp only [State.portRead]
    cases hr : s.datRead with
    | none => exact trivial
    | some r => exact h.datRead r hr
  | istr | gcntr | gcntrByte => exact s.recompute_lineOk
  | sramWin => exact (h.orDraw _).nextSram
  | stDma => exact (h.dmaActive (ne_of_hasPort hp rfl) .started).strobe .read
  | spDma => exact (h.dmaActive (ne_of_hasPort hp rfl) .stopped).strobe .read
  | cint | gStDma | gSpDma => exact strobe (State.recompute_lineOk _) .read
  | flush => exact h.strobe .read
  | sramOff => exact h.unnamedAccess .read
  | xtWindow => exact trivial
  | sel | cntr | wtc | acr | gaddr | gbank | dawr => exact h

theorem portWrite (h : s.LineOk) {p : Port} (hp : hasPort s.ctl.cfg.variant p = true) (v : Word) :
    (s.portWrite p v).LineOk := by
  cases p with
  | dat =>
    simp only [State.portWrite]
    cases hr : s.datWrite (v.extractLsb' 0 8) with
    | none => exact trivial
    | some t => exact h.datWrite _ t hr
  | cntr | gcntr | gcntrByte => exact State.recompute_lineOk _
  | istr => exact h.unnamedAccess (.write v)
  | sramWin => exact h.upd (by constructor <;> simp [Controller.nextSram])
  | stDma => exact (h.dmaActive (ne_of_hasPort hp rfl) .started).strobe (.write v)
  | spDma => exact (h.dmaActive (ne_of_hasPort hp rfl) .stopped).strobe (.write v)
  | cint | gStDma | gSpDma => exact strobe (State.recompute_lineOk _) (.write v)
  | flush => exact h.strobe (.write v)
  | xtWindow => exact trivial
  | sel | wtc | acr | dawr | gbank | gaddr | sramOff => exact h.upd (by constructor <;> intros <;> rfl)

theorem portAccess (h : s.LineOk) (p : Port) (a : Access) : (s.portAccess p a).LineOk := by
  unfold State.portAccess
  split
  case isTrue hp =>
    cases a with
    | read => exact h.portRead hp
    | write v => exact h.portWrite hp v
  case isFalse => exact h.unnamedAccess a

theorem pageAccess (h : s.LineOk) (off : Nat) (a : Access) : (s.pageAccess off a).LineOk := by
  unfold State.pageAccess
  split
  · exact h.unnamedAccess a
  · exact h.portAccess _ a

end State.LineOk

/-! ### The host's turn (00_scope.md R11) -/

/-- Where the answer is a next state, the line agrees with it. -/
def HostAnswer.LineOk (r : HostAnswer) : Prop :=
  match r with
  | .held => True
  | .waits => True
  | .refused _ => True
  | .done t => t.LineOk

theorem PortAnswer.LineOk.finishAccess {r : PortAnswer} (h : r.LineOk) (w : Width) (joined : Bool) :
    (finishAccess r w joined).LineOk := by
  cases r with
  | held | refused => exact trivial
  | done t d =>
    have h : t.LineOk := h
    rw [finishAccess_done]
    exact h.rest rfl rfl rfl

namespace State.LineOk

variable {s : State}

theorem hostAccess (h : s.LineOk) (op : HostOp) : (s.hostAccess op).LineOk := by
  cases op with
  | port _ p a => exact (h.portAccess p a).finishAccess .long false
  | page slot off w a joined =>
    simp only [State.hostAccess, State.hostPage]
    split
    · exact (h.pageAccess off a).finishAccess w joined
    · exact h.rest rfl rfl rfl
  | teardown slot =>
    simp only [State.hostAccess, State.teardown]
    cases hu : s.enqueue s.ctl.cfg.shutdown with
    | none => exact trivial
    | some u => exact (h.enqueue _ u hu).rest rfl rfl rfl
  | awaitExit =>
    simp only [State.hostAccess, State.awaitExit]
    split
    · exact trivial
    · exact h.upd (by constructor <;> simp)

theorem hostProceeds {t : State} (h : s.LineOk) (ht : s.hostProceeds = .next t) : t.LineOk := by
  unfold State.hostProceeds at ht
  split at ht
  · cases ht; exact h
  next op ops _ =>
    have hdrop : { s with hostOps := ops }.LineOk := h.rest rfl rfl rfl
    split at ht
    · cases ht; exact hdrop
    next s' hf =>
      have ha := (hdrop.focus hf).hostAccess op
      split at ht
      case isFalse => cases ht; exact hdrop
      case isTrue =>
        cases hr : s'.hostAccess op with
        | held => rw [hr] at ht; cases ht; exact h.rest rfl rfl rfl
        | waits => rw [hr] at ht; cases ht; exact h
        | refused r => rw [hr] at ht; cases ht
        | done u => rw [hr] at ht ha; cases ht; exact ha

theorem hostTurn {t : State} (h : s.LineOk) (ht : s.hostTurn = .next t) : t.LineOk := by
  cases hh : s.hostHeld with
  | none => exact h.hostProceeds (State.hostTurn_free hh ▸ ht)
  | some k =>
    rw [State.hostTurn_held hh] at ht
    cases ht; exact h

/-! ### The other agents (R355) -/

/-- The worker's step ends with a recompute, or is none (45_dispatch.md R305). -/
theorem workerStep {t : State} (h : s.LineOk) (ht : s.workerStep = .next t) : t.LineOk := by
  unfold State.workerStep at ht
  split at ht
  · cases ht; exact h
  · split at ht
    · cases ht; exact State.recompute_lineOk _
    · cases ht
    · cases ht

theorem atSlot (h : s.LineOk) (slot : Nat) {f : State → State} (hf : ∀ u : State, u.LineOk → (f u).LineOk) :
    (s.atSlot slot f).LineOk := by
  unfold State.atSlot
  split
  · exact h
  next u hu =>
    split
    · exact h
    · exact hf u (h.focus hu)

/-- A board as constructed has no request, so it adds nothing to the line (45_dispatch.md R320). -/
theorem construct (h : s.LineOk) (slot : Nat) (cfg : Params) (ids : List (Fin 8)) :
    (s.construct slot cfg ids).LineOk := by
  unfold State.construct
  split
  · exact h
  · obtain ⟨hfold, hline⟩ := s.lineOk_iff.mp h
    have hnew : (Controller.construct slot cfg (attach ids)).foldLatch =
        Controller.construct slot cfg (attach ids) := by
      rw [Controller.foldLatch, Controller.foldedIstr_eq, Controller.foldedGcntr_eq]
      simp [Controller.construct]
    have hsilent : (Controller.construct slot cfg (attach ids)).contributes = false := by
      rw [Controller.contributes, Controller.pred_construct, Bool.and_false]
    refine of_perm
      (s := { s with ctl := Controller.construct slot cfg (attach ids), others := s.controllers }) ?_
      (List.perm_append_singleton (Controller.construct slot cfg (attach ids)) s.controllers) rfl
    refine State.lineOk_iff _ |>.mpr ⟨List.forall_mem_cons.mpr ⟨hnew, hfold⟩, hline.trans ?_⟩
    show _ = (_ || s.controllers.any Controller.contributes)
    rw [hsilent, Bool.false_or]

theorem external (h : s.LineOk) (e : External) : (s.external e).LineOk := by
  cases e with
  | boardReset slot | autoconfig slot | xtRequest slot | xtDma slot =>
    exact h.atSlot slot fun _ _ => State.recompute_lineOk _
  | construct slot cfg ids => exact h.construct slot cfg ids
  | memoryWrite a v =>
    rw [State.external, State.memWrite_eq]
    exact h.rest rfl rfl rfl
  | targetReply slot id r =>
    refine h.atSlot slot fun u hu => hu.upd ?_
    rw [Controller.addReply_eq]
    constructor <;> simp

theorem turn {t : State} (h : s.LineOk) {a : Turn} (ht : s.turn a = .next t) : t.LineOk := by
  cases a with
  | host => exact h.hostTurn ht
  | worker slot =>
    simp only [State.turn] at ht
    split at ht
    · cases ht; exact h
    · exact (h.focus ‹_›).workerStep ht
  | tick slot =>
    cases ht
    exact h.atSlot slot fun _ _ => State.recompute_lineOk _
  | external e =>
    cases ht
    exact h.external e

end State.LineOk

/-- Settles O59, agent by agent: the worker, the tick and the events that reach a request or an enable end with a
recompute (`State.recompute_lineOk`), and every other access leaves alone what the line reads (`State.LineOk.upd`). -/
theorem stepKeepsTheLine : Obligations.StepKeepsTheLine := by
  intro s t h ht
  unfold step at ht
  split at ht
  case h_1 a ts _ =>
    have h' : { s with turns := ts }.LineOk := h.rest rfl rfl rfl
    exact h'.turn ht
  case h_2 => exact (h.draw (s.draws + 1)).turn ht

end Sys2Proof.Machine
end

section
/-! The DATA register with no transfer open at it (40_register_access.md R152, R153, first lines). -/

namespace Sys2Proof.Machine

/-- No byte can move at DATA: no transfer is open, or no target is there to move it. -/
abbrev State.NoTransfer (s : State) : Prop := s.ctl.dataAvail = .closed ∨ s.target = none

namespace State.NoTransfer

variable {s : State}

theorem readData (h : s.NoTransfer) : s.readData = some (s, 0) := by
  unfold State.readData
  cases ht : s.target with
  | none => rfl
  | some t => exact if_pos (h.resolve_right (by simp [ht]))

/-- The byte is stored before R153 asks for a transfer, and storing it opens none. -/
theorem writeData (h : s.NoTransfer) (v : Byte) : s.writeData v = some (s.upd fun c => c.setReg DATA v) := by
  have hstored : (s.upd fun c => c.setReg DATA v).NoTransfer := h
  unfold State.writeData
  cases ht : (s.upd fun c => c.setReg DATA v).target with
  | none => simp only [ht]
  | some t => simp only [ht, if_pos (hstored.resolve_right (by simp [ht]))]

end State.NoTransfer

/-- Settles O16: R152 and R153 stop at the missing transfer, and the pointer stands on DATA (R141). -/
theorem closedDataPortMovesNothing : Obligations.ClosedDataPortMovesNothing := by
  intro s v hp h
  have hdata : s.ctl.sasr = DATA := hp
  have hclosed : s.NoTransfer := h
  refine ⟨?read, ?write⟩
  case read =>
    have hread : s.readRegister s.ctl.sasr = some (s, 0) := by
      rw [hdata, State.readRegister_data, hclosed.readData]
    exact State.datRead_of_stays hread (.inr (.inl hdata))
  case write =>
    have hwrite : s.writeRegister s.ctl.sasr v = some (s.upd fun c => c.setReg DATA v) := by
      rw [hdata, State.writeRegister_data, hclosed.writeData]
    exact State.datWrite_of_stays hwrite (.inr (.inl hdata))

end Sys2Proof.Machine
end

section
/-! RESET, ABORT and the unrecognised commands (42_chip_commands.md R190 to R193, R228). -/

namespace Sys2Proof.Machine

/-- The status RESET posts, by OWN_ID's advanced-features bit (R190). -/
theorem Controller.resetStatus_eq (c : Controller) :
    (if hasBit (c.reg OWN_ID) OWN_ID_EAF then CSR_RESET_AF else CSR_RESET) =
      if c.regs[0x00].getLsbD 3 then 0x01 else 0x00 := by
  have hbit : hasBit (c.reg OWN_ID) OWN_ID_EAF = c.regs[0x00].getLsbD 3 := hasBit_twoPow _ 3
  rw [hbit]
  rfl

/-- The controller the chip's reset leaves (R190). -/
theorem Controller.resetChip_eq (c : Controller) : c.resetChip = { c with
    regs := Vector.ofFn fun i : Fin 32 => if (1 ≤ i.val ∧ i.val ≤ 0x15) ∨ i.val = 0x18 then 0 else c.regs[i.val]
    sasr := 0, selected := false, curTarget := none, auxInt := false, dataAvail := .closed
    queue := c.queue.map fun x => { x with count := 0 }
    qIndex := 0 } := by
  rw [resetChip, zeroRegs_eq, regs_zeroRegs_resetRegs]

theorem State.resetProc_posts (s : State) : s.resetProc true =
    (s.upd fun c => c.resetChip.post (if s.ctl.regs[0x00].getLsbD 3 then 0x01 else 0x00) c.cfg.tReset).recompute := by
  rw [← s.ctl.resetStatus_eq]
  simp only [State.resetProc, if_true, State.upd_upd, Controller.resetChip_eq]

/-- Settles O23: the chip's reset, the post into the first slot, the recompute. -/
theorem resetCommandClearsTheChip : Obligations.ResetCommandClearsTheChip := by
  intro sbt s
  show Host.Outcome.next (s.resetProc true) = _
  rw [State.resetProc_posts, State.upd, Controller.post_eq_awaits, Controller.resetChip_eq, Controller.awaits]

/-- Settles O24: ABORT's meaning is the state itself. -/
theorem abortChangesNothing : Obligations.AbortChangesNothing := fun _ _ => rfl

/-- Settles O35: the command is one post. -/
theorem unrecognisedCommandPostsInvalid : Obligations.UnrecognisedCommandPostsInvalid := by
  intro sbt op s
  show Host.Outcome.next (s.upd fun c => c.post CSR_INVALID c.cfg.tInvalid) = _
  rw [State.upd, Controller.post_eq_awaits]
  rfl

end Sys2Proof.Machine
end

section
/-! Commands that find nothing to do, and Negate-Acknowledge (42_chip_commands.md R220, R225; 43_transfer_callbacks.md
R239, R246, R248). -/

namespace Sys2Proof.Machine

theorem execTransInfo_of_no_target {s : State} (h : s.target = none) (sbt : Bool) : execTransInfo sbt s = .next s := by
  rw [execTransInfo, h]

theorem State.transferOut_of_no_target {s : State} (h : s.target = none) : s.transferOut.1 = s := by
  rw [State.transferOut, h]

theorem State.transferIn_of_no_target {s : State} (h : s.target = none) (msgFlag : Bool) :
    (s.transferIn msgFlag).1 = s := by
  rw [State.transferIn, h]

/-- Settles O32: without a target by the first test, in a phase no arm names by R246's. -/
theorem nothingToTransferChangesNothing : Obligations.NothingToTransferChangesNothing := by
  intro sbt tid cmd s
  refine ⟨fun hnone => ⟨execTransInfo_of_no_target hnone sbt,
    congrArg Host.Outcome.next (State.transferOut_of_no_target hnone)⟩, fun hp h30 h44 h45 => ?_⟩
  refine congrArg Host.Outcome.next ?_
  cases ht : s.target with
  | none => exact State.transferOut_of_no_target ht
  | some t =>
    obtain ⟨i, h⟩ := State.exists_current ht
    exact h.transferOut_otherwise (Nat.not_lt.mpr hp) h30 (not_or.mpr ⟨h44, h45⟩)

/-- In message-in the command is `transferIn` (R225). -/
theorem execNegateAck_of_messageIn {s : State} (h : s.ctl.regs[0x10] = 0x50) (sbt : Bool) :
    execNegateAck sbt s = .next (s.transferIn false).1 := if_pos h

theorem execNegateAck_otherwise {s : State} (h : s.ctl.regs[0x10] ≠ 0x50) (sbt : Bool) :
    execNegateAck sbt s = .next s := if_neg h

/-- What `transferIn` makes of the controller in message-in (R248). -/
theorem State.Current.transferIn_messageIn {s : State} {i : Fin 8} {t : Target} (h : s.Current i t)
    (hp : s.ctl.phase = 0x50) (msgFlag : Bool) : (s.transferIn msgFlag).1 = { s with
      ctl := if t.offset < t.dataLength then s.ctl.retriedWith 0x1F
        else { s.ctl with selected := false }.advancedTo i 0x60 0x85 t.begin } := by
  rw [h.transferIn_eq, hp, if_neg (by decide), if_neg (by decide), if_pos rfl]

/-- Settles O34: outside message-in by the command's own test, in it by R248's two arms. -/
theorem negateAckHoldsOrDisconnects : Obligations.NegateAckHoldsOrDisconnects := by
  intro sbt s
  refine ⟨fun hno => ?nothing, fun i t hi ht hp => ?messageIn⟩
  case nothing =>
    show execNegateAck sbt s = _
    by_cases hp : s.ctl.regs[0x10] = 0x50
    · rw [execNegateAck_of_messageIn hp, State.transferIn_of_no_target (hno.resolve_right (not_not_intro hp))]
    · exact execNegateAck_otherwise hp sbt
  case messageIn =>
    have h : s.Current i t := ⟨hi, ht⟩
    have hexec : exec (.negateAck sbt) s = .next (s.transferIn false).1 := execNegateAck_of_messageIn hp sbt
    rw [hexec, h.transferIn_messageIn hp]
    refine ⟨fun hlt => ?_, fun hle => ?_⟩
    · rw [if_pos hlt]; rfl
    · rw [if_neg (Nat.not_lt.mpr hle)]; rfl

end Sys2Proof.Machine
end

section
/-! The current target's calls as one change of the state (20_memory.md R90). -/

namespace Sys2Proof.Machine

/-- Target `t` stands at SCSI ID `i`, and the free-value counter at `n`. -/
def State.holding (s : State) (i : Fin 8) (t : Target) (n : Nat) : State :=
  { s with draws := n, ctl := { s.ctl with targets := s.ctl.targets.set i.val (some t) } }

theorem State.holding_current {s : State} {i : Fin 8} (h : s.ctl.curTarget = some i) (t : Target) (n : Nat) :
    (s.holding i t n).Current i t := ⟨h, by simp [State.holding]⟩

theorem State.holding_holding (s : State) (i : Fin 8) (t u : Target) (n m : Nat) :
    (s.holding i t n).holding i u m = s.holding i u m := by
  simp only [State.holding, Vector.set_set]

theorem State.upd_setTarget {s : State} {i : Fin 8} (h : s.ctl.curTarget = some i) (t : Target) (n : Nat) :
    (({ s with draws := n } : State).upd fun c => c.setTarget t) = s.holding i t n := by
  rw [State.upd, Controller.setTarget_eq _ h]
  rfl

namespace State.Current

variable {s : State} {i : Fin 8} {t : Target} (h : s.Current i t)
include h

theorem modTarget_holds (f : Target → Target) : s.modTarget f = s.holding i (f t) s.draws := by
  rw [State.modTarget, h.target]
  exact State.upd_setTarget h.curTarget (f t) s.draws

theorem beginTarget_holds : s.beginTarget = s.holding i t.begin s.draws := h.modTarget_holds Target.begin

theorem analyzeTarget_holds :
    s.analyzeTarget = s.holding i (t.analyzed (s.analyzeAnswer t)) (s.drawsAnalyzed t) :=
  h.analyzeTarget.trans (State.upd_setTarget h.curTarget _ _)

theorem executeTarget_holds : s.executeTarget = s.holding i (t.executed s.draws) (t.drawsExecuted s.draws) :=
  h.executeTarget.trans (State.upd_setTarget h.curTarget _ _)

end State.Current

end Sys2Proof.Machine
end

section
/-! Select (42_chip_commands.md R195 to R199): the lookup, and what both commands make of its answer. -/

namespace Sys2Proof.Machine

/-! ### The lookup (R195, R196) -/

namespace Controller

variable {c : Controller}

theorem lookup_of_attached {id : Fin 8} {t : Target} (hid : c.destId = id) (h7 : id ≠ 7)
    (ht : c.targets[id.val] = some t) : c.lookup = some id := by
  subst hid
  have ht : c.targetAt c.destId = some t := ht
  rw [lookup, if_neg h7, ht]
  rfl

theorem lookup_of_missing (h : c.destId = 7 ∨ c.targets[c.destId.val] = none) : c.lookup = none := by
  rw [lookup]
  split
  case isTrue => rfl
  case isFalse h7 =>
    have ht : c.targetAt c.destId = none := h.resolve_left h7
    rw [ht]
    rfl

/-! ### The command (R199) -/

theorem setPhase_eq (c : Controller) (v : Byte) : c.setPhase v = { c with regs := c.regs.set 0x10 v } := rfl

end Controller

namespace State

variable {s : State}

theorem select_missing (h : s.ctl.lookup = none) (atn : Bool) :
    s.select atn = { s with
      ctl := { s.ctl.setPhase 0x00 with curTarget := none }.awaits 0x42 (max 1 s.ctl.cfg.tTimeout) } := by
  have hidle : (s.upd fun c => c.setPhase PHASE_IDLE).ctl.lookup = none := (s.ctl.lookup_setPhase _).trans h
  simp only [State.select, hidle, State.upd_upd, Controller.post_eq_awaits]
  rfl

/-- The target found is selected, begins, and the chip asks for the next phase (R197 to R199). -/
theorem select_found {id : Fin 8} {t : Target} (h : s.ctl.lookup = some id) (ht : s.ctl.targets[id.val] = some t)
    (atn : Bool) :
    s.select atn = { s with
      ctl := ({ s.ctl with
        regs := s.ctl.regs.set 0x10 (if atn then 0x10 else 0x30), curTarget := some id, selected := true
        targets := s.ctl.targets.set id.val (some t.begin) }.awaits 0x11 (max 1 s.ctl.cfg.tSel1)).awaits
          (if atn then 0x8E else 0x8A) (max 1 s.ctl.cfg.tSel2) } := by
  have hidle : (s.upd fun c => c.setPhase PHASE_IDLE).ctl.lookup = some id := (s.ctl.lookup_setPhase _).trans h
  have hcur : ((s.upd fun c => c.setPhase PHASE_IDLE).upd fun c => { c with curTarget := some id }).Current id t :=
    ⟨rfl, ht⟩
  simp only [State.select, hidle, hcur.beginTarget_holds, Controller.post_eq_awaits]
  simp only [State.upd, State.holding, Controller.awaits, Controller.setPhase_eq, Vector.set_set]
  cases atn <;> rfl

end State

/-- Settles O25: the lookup finds the target, and each command posts two statuses. -/
theorem selectOfAPresentTarget : Obligations.SelectOfAPresentTarget := by
  intro sbt s t id h7 ht
  have hfound : s.ctl.lookup = some id := Controller.lookup_of_attached rfl h7 ht
  exact ⟨congrArg Host.Outcome.next (State.select_found hfound ht true),
    congrArg Host.Outcome.next (State.select_found hfound ht false)⟩

theorem State.selXfer_missing {s : State} (h : s.ctl.lookup = none) (atn : Bool) :
    s.selXfer atn = { s with
      ctl := { s.ctl.setPhase 0x00 with curTarget := none, dataAvail := .closed }.awaits 0x42
        (max 1 s.ctl.cfg.tTimeout) } := by
  have hclosed : (s.upd fun c => { c with dataAvail := .closed }).ctl.lookup = none := h
  simp only [State.selXfer, hclosed, State.upd_upd, Controller.post_eq_awaits]
  rfl

/-- Settles O26: the lookup fails, and each of the four commands posts the time-out. -/
theorem selectOfAMissingTargetTimesOut : Obligations.SelectOfAMissingTargetTimesOut := by
  intro sbt s id h
  have hmissing : s.ctl.lookup = none := Controller.lookup_of_missing h
  exact ⟨congrArg Host.Outcome.next (State.select_missing hmissing false),
    congrArg Host.Outcome.next (State.select_missing hmissing true),
    congrArg Host.Outcome.next (State.selXfer_missing hmissing false),
    congrArg Host.Outcome.next (State.selXfer_missing hmissing true)⟩

end Sys2Proof.Machine
end

section
/-! Transfer Info (42_chip_commands.md R220 to R222). -/

namespace Sys2Proof.Machine

/-! ### The shape of the transfer, by the phase (R221) -/

section
variable {p : Byte} (n : Nat) (t : Target)

theorem transferShape_message (h : p.toNat < 0x20) :
    transferShape p n t = some { t with direction := .toDevice, dataLength := n } := if_pos h

theorem transferShape_command :
    transferShape 0x30 n t = some { t with direction := .command, dataLength := n, cmdLength := n } := rfl

theorem transferShape_data (h : p = 0x44 ∨ p = 0x45) : transferShape p n t = some t := by
  obtain rfl | rfl := h <;> rfl

theorem transferShape_byte (h : p = 0x46 ∨ p = 0x47 ∨ p = 0x50) :
    transferShape p n t = some { t with direction := .toHost, dataLength := 1 } := by
  obtain rfl | rfl | rfl := h <;> rfl

theorem transferShape_otherwise (hp : 0x20 ≤ p.toNat) (h : p ∉ ([0x30, 0x44, 0x45, 0x46, 0x47, 0x50] : List Byte)) :
    transferShape p n t = none := by
  simp only [List.mem_cons, List.not_mem_nil, or_false, not_or] at h
  obtain ⟨h30, h44, h45, h46, h47, h50⟩ := h
  have hmessage : ¬p.toNat < PHASE_MESSAGE_SENT.toNat := Nat.not_lt.mpr hp
  have hcommand : ¬p = PHASE_COMMAND := h30
  have hmessageIn : ¬p = PHASE_MESSAGE_IN := h50
  rw [transferShape, if_neg hmessage, if_neg hcommand, if_neg ((dataPhase_iff p).not.mpr (not_or.mpr ⟨h44, h45⟩)),
    if_neg ((statusPhase_iff p).not.mpr (not_or.mpr ⟨h46, h47⟩)), if_neg hmessageIn]

end

/-! ### The counter (R220) -/

theorem transferCount_eq (sbt : Bool) (tc : Count) :
    transferCount sbt tc = if sbt = true ∨ tc = 0 then 1 else tc := by
  simp [transferCount]

namespace Controller

/-- The controller once Transfer Info has set the counter and the mirror starts over (R220). -/
def counted (c : Controller) (sbt : Bool) : Controller :=
  { c.setTc (if sbt = true ∨ c.tc = 0 then 1 else c.tc) with scratchOff := 0 }

/-- A transfer opens with `t` at SCSI ID `i`, for the engine where DMA is usable (R222). -/
def opened (c : Controller) (i : Fin 8) (t : Target) : Controller :=
  { c with targets := c.targets.set i.val (some t), dataAvail := if c.canDma then .dma else .pio }

theorem canDma_congr {c d : Controller} (hcfg : d.cfg = c.cfg) (hcontrol : d.reg CONTROL = c.reg CONTROL) :
    d.canDma = c.canDma := by
  rw [canDma, canDma, dmaMode, dmaMode, hcfg, hcontrol]

variable (c : Controller) (sbt : Bool)

@[simp] theorem setTarget_canDma (t : Target) : (c.setTarget t).canDma = c.canDma := canDma_congr (by simp) (by simp)

@[simp] theorem setPhase_canDma (p : Byte) : (c.setPhase p).canDma = c.canDma :=
  canDma_congr rfl (c.reg_setPhase_ne (by decide) p)

@[simp] theorem counted_phase : (c.counted sbt).phase = c.phase := c.phase_setTc _

@[simp] theorem counted_tc : (c.counted sbt).tc = if sbt = true ∨ c.tc = 0 then 1 else c.tc := c.tc_setTc _

@[simp] theorem counted_canDma : (c.counted sbt).canDma = c.canDma :=
  canDma_congr rfl (c.reg_setTc_ne (by decide) (by decide) (by decide) _)

theorem setTc_setPhase (v : Count) (p : Byte) : (c.setPhase p).setTc v = (c.setTc v).setPhase p := by
  simp only [setTc, setPhase]
  rw [setReg_comm _ (j := TC_MSB) (by decide), setReg_comm _ (j := TC_MID) (by decide),
    setReg_comm _ (j := TC_LSB) (by decide)]

theorem counted_setPhase (p : Byte) : (c.setPhase p).counted sbt = (c.counted sbt).setPhase p := by
  rw [counted, tc_setPhase, setTc_setPhase]
  rfl

/-- The counter and the current target are written independently. -/
theorem counted_setTarget (t : Target) : (c.setTarget t).counted sbt = (c.counted sbt).setTarget t := by
  rw [counted, setTarget_tc, setTc_setTarget]
  unfold setTarget
  rw [setTc_curTarget]
  cases hc : c.curTarget <;> simp [counted, hc]

end Controller

namespace State.Current

variable {s : State} {i : Fin 8} {t : Target}

/-- A transfer opens in every phase R221 gives a shape, 0x20 aside. -/
theorem transferOpen_opens (h : s.Current i t) (hp : s.ctl.phase ≠ 0x20) (sbt : Bool) {u : Target}
    (hu : transferShape s.ctl.phase (s.ctl.counted sbt).tc.toNat t = some u) :
    s.transferOpen sbt t = { s with ctl := (s.ctl.counted sbt).opened i u } := by
  have hentering : (s.ctl.phase == PHASE_MESSAGE_SENT) = false := beq_false_of_ne hp
  have hcur : (s.ctl.counted sbt).curTarget = some i := h.curTarget
  have hcount : { s.ctl.setTc (transferCount sbt s.ctl.tc) with scratchOff := 0 } = s.ctl.counted sbt := by
    rw [transferCount_eq]; rfl
  simp only [State.transferOpen, hentering, Bool.false_eq_true, if_false, State.upd, hcount, Controller.counted_phase,
    hu, Controller.setTarget_eq _ hcur]
  rfl

/-- After the messages the command phase is entered first (R220). -/
theorem transferOpen_enters (h : s.Current i t) (hp : s.ctl.phase = 0x20) (sbt : Bool) :
    s.transferOpen sbt t = { s with
      ctl := ((s.ctl.counted sbt).setPhase 0x30).opened i { t with
        direction := .command, dataLength := (s.ctl.counted sbt).tc.toNat
        cmdLength := (s.ctl.counted sbt).tc.toNat, status := 0 } } := by
  have hentering : (s.ctl.phase == PHASE_MESSAGE_SENT) = true := beq_iff_eq.mpr hp
  have hcur : ((s.ctl.counted sbt).setPhase 0x30).curTarget = some i := h.curTarget
  have hcount (u : Target) : { ((s.ctl.setPhase PHASE_COMMAND).setTarget u).setTc
      (transferCount sbt ((s.ctl.setPhase PHASE_COMMAND).setTarget u).tc) with scratchOff := 0 } =
        ((s.ctl.counted sbt).setPhase 0x30).setTarget u := by
    rw [← s.ctl.counted_setPhase, ← Controller.counted_setTarget, transferCount_eq]
    rfl
  simp only [State.transferOpen, hentering, if_true, State.upd, hcount]
  simp only [Controller.setTarget_phase, Controller.phase_setPhase, transferShape_command, Controller.setTarget_tc,
    Controller.tc_setPhase, Controller.setTarget_setTarget, Controller.setTarget_canDma]
  rw [Controller.setTarget_eq _ hcur]
  rfl

end State.Current

/-- None opens in a phase without a shape (R221). -/
theorem State.transferOpen_closes {s : State} {t : Target} {sbt : Bool} (hp : s.ctl.phase ≠ 0x20)
    (hu : transferShape s.ctl.phase (s.ctl.counted sbt).tc.toNat t = none) :
    s.transferOpen sbt t = { s with ctl := { s.ctl.counted sbt with dataAvail := .closed } } := by
  have hentering : (s.ctl.phase == PHASE_MESSAGE_SENT) = false := beq_false_of_ne hp
  have hcount : { s.ctl.setTc (transferCount sbt s.ctl.tc) with scratchOff := 0 } = s.ctl.counted sbt := by
    rw [transferCount_eq]; rfl
  simp only [State.transferOpen, hentering, Bool.false_eq_true, if_false, State.upd, hcount, Controller.counted_phase,
    hu]

/-- Settles O33, phase by phase: the shape of R221, or none. -/
theorem transferInfoOpensThePhase : Obligations.TransferInfoOpensThePhase := by
  intro sbt s i t hi ht p n counted opened
  have h : s.Current i t := ⟨hi, ht⟩
  have hphase : s.ctl.phase = p := rfl
  have hn : (s.ctl.counted sbt).tc = n := s.ctl.counted_tc sbt
  have hexec : exec (.transInfo sbt) s = .next (s.transferOpen sbt t) := by
    show execTransInfo sbt s = _
    rw [execTransInfo, h.target]
  have hopens {u : Target} (hp : p ≠ 0x20) (hu : transferShape p n.toNat t = some u) :
      exec (.transInfo sbt) s = .next (opened counted u) := by
    rw [hexec, h.transferOpen_opens hp sbt (hn ▸ hu), Controller.opened, Controller.counted_canDma]
    rfl
  refine ⟨fun hp => ?message, fun hp => ?command, fun hp => ?enters, fun hp => ?data, fun hp => ?byte,
    fun hlow hp => ?otherwise⟩
  case message => exact hopens (fun e => by simp [e] at hp) (transferShape_message _ t hp)
  case command => exact hopens (hp ▸ by decide) (hp ▸ transferShape_command _ t)
  case enters =>
    rw [hexec, h.transferOpen_enters hp, hn, Controller.opened, Controller.setPhase_canDma, Controller.counted_canDma]
    rfl
  case data => exact hopens (by obtain hp | hp := hp <;> rw [hp] <;> decide) (transferShape_data _ t hp)
  case byte => exact hopens (by obtain hp | hp | hp := hp <;> rw [hp] <;> decide) (transferShape_byte _ t hp)
  case otherwise =>
    have hne : p ≠ 0x20 := fun e => by simp [e] at hlow
    rw [hexec, State.transferOpen_closes hne (transferShape_otherwise _ t hlow.le hp)]
    rfl

end Sys2Proof.Machine
end

section
/-! The command bytes of Select-and-Transfer (42_chip_commands.md R207): from the chip's registers to the target, and
into the scratch mirror. -/

namespace Sys2Proof.Machine

/-! ### The command descriptor -/

theorem getElem_foldl_setIfInBounds (g : Nat → Byte) (v : Vector Byte 16) (n k : Nat) (hk : k < 16) :
    ((List.range n).foldl (fun v i => v.setIfInBounds i (g i)) v)[k] = if k < n then g k else v[k] := by
  induction n with
  | zero => rfl
  | succ n ih =>
    rw [List.range_succ, List.foldl_append, List.foldl_cons, List.foldl_nil, Vector.getElem_setIfInBounds, ih]
    by_cases hkn : n = k
    · rw [if_pos hkn, if_pos (by omega), hkn]
    · rw [if_neg hkn]
      by_cases hlt : k < n
      · rw [if_pos hlt, if_pos (by omega)]
      · rw [if_neg hlt, if_neg (by omega)]

theorem Controller.reg_cdb (c : Controller) {k : Nat} (hk : k < 12) :
    c.reg (CDB_1 + BitVec.ofNat 5 k) = c.regs[3 + k] := by
  have hnum : (CDB_1 + BitVec.ofNat 5 k).toNat = 3 + k := by
    have hcdb : CDB_1.toNat = 3 := rfl
    rw [BitVec.toNat_add, BitVec.toNat_ofNat, hcdb]
    omega
  simp only [Controller.reg, hnum]

/-- The target's command bytes, by the registers 0x03 to 0x0E. -/
theorem Controller.cdbInto_eq (c : Controller) (cmd : Vector Byte 16) :
    c.cdbInto cmd = Vector.ofFn fun k : Fin 16 => if h : k.val < 12 then c.regs[3 + k.val] else cmd[k.val] := by
  apply Vector.ext
  intro k hk
  rw [Controller.cdbInto, getElem_foldl_setIfInBounds, Vector.getElem_ofFn]
  by_cases h : k < 12
  · rw [if_pos h, dif_pos h, c.reg_cdb h]
  · rw [if_neg h, dif_neg h]

/-! ### The mirror (10_state.md R28) -/

namespace Controller

/-- Several bytes mirrored one after the other: those that fit. -/
theorem scratch_foldl_mirror (bs : List Byte) (c : Controller) :
    (bs.foldl mirror c).scratch =
      Memory.putAll c.scratch c.scratchOff (bs.take (c.cfg.scratchSize - c.scratchOff)) := by
  induction bs generalizing c with
  | nil => simp [Memory.putAll]
  | cons b bs ih =>
    rw [List.foldl_cons, ih]
    have hscratch : (c.mirror b).scratch =
        if c.scratchOff < c.cfg.scratchSize then Memory.put c.scratch c.scratchOff b else c.scratch := rfl
    rw [hscratch, mirror_scratchOff, mirror_cfg]
    by_cases hfits : c.scratchOff < c.cfg.scratchSize
    · rw [if_pos hfits, show c.cfg.scratchSize - c.scratchOff = c.cfg.scratchSize - (c.scratchOff + 1) + 1 by omega,
        List.take_succ_cons, Memory.putAll]
    · rw [if_neg hfits, Nat.sub_eq_zero_of_le (Nat.not_lt.mp hfits), Nat.sub_eq_zero_of_le (by omega),
        List.take_zero, List.take_zero, Memory.putAll, Memory.putAll]

theorem foldl_mirror_eq (bs : List Byte) (c : Controller) :
    bs.foldl mirror c = { c with
      scratch := Memory.putAll c.scratch c.scratchOff (bs.take (c.cfg.scratchSize - c.scratchOff))
      scratchOff := c.scratchOff + bs.length } := by
  have hframe : bs.foldl mirror c = { c with
      scratch := (bs.foldl mirror c).scratch, scratchOff := c.scratchOff + bs.length } := by
    induction bs generalizing c with
    | nil => rfl
    | cons b bs ih =>
      rw [List.foldl_cons, ih, List.length_cons, mirror_scratchOff, Nat.add_assoc, Nat.add_comm 1]
      rfl
  rw [hframe, scratch_foldl_mirror]

/-- The scratch mirror after the command part of step A (R207): the command bytes of `t`, as many as fit. -/
def commandMirror (c : Controller) (t : Target) : Memory :=
  Memory.putAll c.scratch 0 (((List.range t.cmdLength).map fun i => t.cmd.getD i 0).take c.cfg.scratchSize)

theorem mirrorCmd_eq (c : Controller) (t : Target) :
    { c with scratchOff := 0 }.mirrorCmd t =
      { c with scratch := c.commandMirror t, scratchOff := t.cmdLength } := by
  rw [mirrorCmd, ← List.foldl_map (f := fun i => t.cmd.getD i 0) (g := mirror), foldl_mirror_eq]
  simp [commandMirror]

theorem commandMirror_wf {c : Controller} (h : Memory.wf c.scratch) (t : Target) : Memory.wf (c.commandMirror t) :=
  Memory.putAll_wf _ h 0

theorem find_commandMirror (c : Controller) {t : Target} (h : t.cmdLength ≤ 16) (k : Nat) :
    Memory.find (c.commandMirror t) k =
      if k < t.cmdLength ∧ k < c.cfg.scratchSize then t.cmd[k]? else Memory.find c.scratch k := by
  rw [commandMirror, Memory.find_putAll]
  by_cases hin : k < t.cmdLength ∧ k < c.cfg.scratchSize
  · have hk : k < 16 := by omega
    rw [if_pos hin, if_pos (by simp; omega)]
    simp [hin, hk, Vector.getD]
  · rw [if_neg hin, if_neg (by simp; omega)]

end Controller

end Sys2Proof.Machine
end

section
/-! Select-and-Transfer up to the data phase (42_chip_commands.md R207, R208): step A takes a new command, step B runs
it unless it is outbound. -/

namespace Sys2Proof.Machine

/-! ### What the target is by then -/

/-- Target `t` has got the command bytes of controller `c` (R207). -/
def Target.commanded (t : Target) (c : Controller) : Target := { t with status := 0, cmd := c.cdbInto t.cmd }

/-- Step B for target `t`, the free-value counter standing at `n` (R208). -/
def Target.started (t : Target) (n : Nat) : Target × Nat :=
  if t.direction.isOut then (t.begin, n) else ((t.executed n).begin, t.drawsExecuted n)

theorem Target.executed_begin (t : Target) (n : Nat) : t.begin.executed n = (t.executed n).begin := by
  by_cases h : t.direction = .toHost
  · rw [Target.executed_of_toHost h rfl, Target.executed_of_toHost (t := t.begin) h rfl]
    rfl
  · rw [Target.executed_of_ne_toHost h, Target.executed_of_ne_toHost (t := t.begin) h]
    rfl

/-- Where step B begins the target again, nothing changes. -/
theorem Target.started_begin (t : Target) (n : Nat) : t.begin.started n = t.started n := by
  unfold Target.started
  rw [Target.executed_begin]
  rfl

theorem Target.executed_direction (t : Target) (n : Nat) : (t.executed n).direction = t.direction := by
  by_cases h : t.direction = .toHost
  · rw [Target.executed_of_toHost h rfl]
  · rw [Target.executed_of_ne_toHost h]

theorem Target.executed_cmd (t : Target) (n : Nat) :
    (t.executed n).cmd = t.cmd ∧ (t.executed n).cmdLength = t.cmdLength := by
  by_cases h : t.direction = .toHost
  · rw [Target.executed_of_toHost h rfl]; exact ⟨rfl, rfl⟩
  · rw [Target.executed_of_ne_toHost h]; exact ⟨rfl, rfl⟩

theorem Target.started_direction (t : Target) (n : Nat) : (t.started n).1.direction = t.direction := by
  unfold Target.started
  split
  · rfl
  · exact t.executed_direction n

theorem Target.started_cmd (t : Target) (n : Nat) :
    (t.started n).1.cmd = t.cmd ∧ (t.started n).1.cmdLength = t.cmdLength := by
  unfold Target.started
  split
  · exact ⟨rfl, rfl⟩
  · exact t.executed_cmd n

/-- An outbound command begins and is not executed. -/
theorem Target.started_outbound {t : Target} {n : Nat} (h : (t.started n).1.direction.isOut = true) :
    t.started n = (t.begin, n) := by
  rw [Target.started_direction] at h
  exact if_pos h

section
variable {s : State} (t : Target)

theorem State.readyForData_new (h : s.ctl.startsCommand) :
    s.readyForData t = ((t.commanded s.ctl).analyzed (s.analyzeAnswer t)).started (s.drawsAnalyzed t) := by
  have hcmd := s.ctl.cdbInto_eq t.cmd
  rw [Target.commanded, hcmd]
  exact if_pos h

theorem State.readyForData_received (h : ¬s.ctl.startsCommand) (hp : s.ctl.phase.toNat ≤ 0x41) :
    s.readyForData t = t.started s.draws :=
  (if_neg h).trans (if_pos hp)

theorem State.readyForData_moving (h : ¬s.ctl.startsCommand) (hp : ¬s.ctl.phase.toNat ≤ 0x41) :
    s.readyForData t = (t, s.draws) :=
  (if_neg h).trans (if_neg hp)

end

/-! ### The scratch mirror -/

/-- The scratch mirror when Select-and-Transfer reaches step C with target `r` (R207). -/
def Controller.mirrorForData (c : Controller) (r : Target) : Memory :=
  if c.startsCommand then c.commandMirror r else c.scratch

theorem State.mirrors_mirrorForData (s : State) (t : Target) :
    s.ctl.mirrors (s.readyForData t).1 (s.ctl.mirrorForData (s.readyForData t).1) := by
  unfold Controller.mirrors Controller.mirrorForData
  refine ⟨fun hwf => ?_, fun h => if_neg h, fun h k => ?_⟩
  · split
    · exact Controller.commandMirror_wf hwf _
    · exact hwf
  · have hlen : (s.readyForData t).1.cmdLength ≤ 16 := by
      rw [State.readyForData_new t h, (Target.started_cmd _ _).2]
      exact (Nat.le_of_lt_succ (s.analyzeAnswer t).cmdLength.isLt).trans (by decide)
    rw [if_pos h]
    exact Controller.find_commandMirror _ hlen k

/-! ### Step A (R207) -/

namespace State.Current

variable {s : State} {i : Fin 8} {t : Target}

/-- A new command: its bytes, its analysis, and what step A makes of the chip. -/
theorem xferCommand (h : s.Current i t) :
    s.xferCommand = (s.holding i ((t.commanded s.ctl).analyzed (s.analyzeAnswer t)).begin
        (s.drawsAnalyzed t)).upd fun c =>
      (({ c with
        scratch := s.ctl.commandMirror ((t.commanded s.ctl).analyzed (s.analyzeAnswer t))
        scratchOff := (s.analyzeAnswer t).cmdLength }).setPhase
          (PHASE_COMMAND + BitVec.ofNat 8 (s.analyzeAnswer t).cmdLength)).setTc 0 := by
  have hanalyzed : (s.modTarget fun t => { t with status := 0, cmd := s.ctl.cdbInto t.cmd }).analyzeTarget.beginTarget =
      s.holding i ((t.commanded s.ctl).analyzed (s.analyzeAnswer t)).begin (s.drawsAnalyzed t) := by
    rw [h.modTarget_holds, (State.holding_current h.curTarget _ _).analyzeTarget_holds, State.holding_holding,
      (State.holding_current h.curTarget _ _).beginTarget_holds, State.holding_holding]
    rfl
  simp only [State.xferCommand, hanalyzed, (State.holding_current h.curTarget _ _).target, Controller.mirrorCmd_eq]
  rfl

/-- Step B (R208). -/
theorem xferExecute_starts (h : s.Current i t) (hp : s.ctl.phase.toNat ≤ 0x41) :
    s.xferExecute t =
      (s.holding i (t.started s.draws).1 (t.started s.draws).2).upd fun c => c.setPhase PHASE_DATA := by
  have hp : s.ctl.phase.toNat ≤ PHASE_CMD_RECEIVED.toNat := hp
  rw [State.xferExecute, if_pos hp, Target.started]
  by_cases hout : t.direction.isOut = true
  · simp only [if_pos hout, h.beginTarget_holds]
  · simp only [if_neg hout, h.executeTarget_holds, (State.holding_current h.curTarget _ _).beginTarget_holds,
      State.holding_holding]
    rfl

end State.Current

namespace Controller

variable {c : Controller}

/-- The command bytes lie below the phase. -/
theorem cdbInto_setPhase (p : Byte) (cmd : Vector Byte 16) : (c.setPhase p).cdbInto cmd = c.cdbInto cmd := by
  rw [cdbInto_eq, cdbInto_eq]
  refine congrArg Vector.ofFn (funext fun k => ?_)
  by_cases hk : k.val < 12
  · rw [dif_pos hk, dif_pos hk]
    exact Vector.getElem_set_ne (i := 0x10) (by decide) _ (by omega)
  · rw [dif_neg hk, dif_neg hk]

theorem setPhase_phase_self {v : Byte} (h : c.phase = v) : c.setPhase v = c := h ▸ c.setReg_reg_self COMMAND_PHASE

theorem regs_setTc_congr {d : Controller} (h : d.regs = c.regs) (v : Count) : (d.setTc v).regs = (c.setTc v).regs := by
  simp only [setTc, setReg, h]

/-- The counter that stood before is written back, whatever it has been since. -/
theorem regs_setTc_back {d : Controller} {p : Byte} {v : Count} (h : d.regs = ((c.setPhase p).setTc v).regs) :
    (d.setTc c.tc).regs = c.regs.set 0x10 p := by
  rw [regs_setTc_congr h, setTc_setTc, setTc_setPhase, setTc_tc_self]
  rfl

theorem setPhase_setTc_self (p : Byte) : (c.setPhase p).setTc c.tc = c.setPhase p := by
  rw [setTc_setPhase, setTc_tc_self]

theorem not_startsCommand_iff : ¬c.startsCommand ↔ c.selected = true ∧ 0x30 < c.phase.toNat := by
  rw [startsCommand, not_or, Bool.not_eq_false, not_le]
  rfl

end Controller

namespace State

variable {s : State} {id : Fin 8} {t : Target}

/-- A new command (R207): the target found is selected, in a phase up to 0x30. -/
theorem xferSelected_new (hnew : s.ctl.startsCommand) (atn : Bool) (id : Fin 8) :
    ∃ p, s.xferSelected atn id =
      (s.upd fun c => { c with curTarget := some id, selected := true }.setPhase p).xferCommand := by
  cases hs : s.ctl.selected with
  | false =>
    refine ⟨if atn then PHASE_MESSAGE_OUT else PHASE_COMMAND, ?_⟩
    simp only [State.xferSelected, State.upd_ctl, hs, Bool.false_eq_true, if_false, Controller.phase_setPhase]
    refine if_pos ?_
    cases atn <;> decide
  | true =>
    have hp : s.ctl.phase.toNat ≤ PHASE_COMMAND.toNat := hnew.resolve_left (by simp [hs])
    refine ⟨s.ctl.phase, ?_⟩
    have hentered : (s.upd fun c => { c with curTarget := some id, selected := true }.setPhase s.ctl.phase) =
        s.upd fun c => { c with curTarget := some id } := by
      refine State.upd_congr ?_
      rw [← hs]
      exact Controller.setReg_reg_self { s.ctl with curTarget := some id } COMMAND_PHASE
    rw [hentered]
    simp only [State.xferSelected, State.upd_ctl, hs, if_true]
    exact if_pos hp

/-- A command resumed after its command bytes (R207): step A finds its target. -/
theorem xferSelected_resumed (h : ¬s.ctl.startsCommand) (atn : Bool) (id : Fin 8) :
    s.xferSelected atn id = s.upd fun c => { c with curTarget := some id } := by
  obtain ⟨hs, hp⟩ := Controller.not_startsCommand_iff.mp h
  simp only [State.xferSelected, State.upd_ctl, hs, if_true]
  exact if_neg (Nat.not_le.mpr hp)

/-! ### Steps A and B -/

/-- The state step C starts from where Select-and-Transfer reaches the data phase (R209): the target at SCSI ID `id`,
first `t`, stands as steps A and B leave it, and the counter is the host's. -/
def atData (s : State) (id : Fin 8) (t : Target) : State :=
  { s with
    draws := (s.readyForData t).2
    ctl := { s.ctl with
      dataAvail := .closed, curTarget := some id, selected := true
      targets := s.ctl.targets.set id.val (some (s.readyForData t).1)
      regs := s.ctl.regs.set 0x10 0x45
      scratch := s.ctl.mirrorForData (s.readyForData t).1, scratchOff := 0 } }

/-- The lookup has found `id`; steps A and B (R207, R208). -/
def begun (s : State) (atn : Bool) (id : Fin 8) : State :=
  let s := (s.upd fun c => { c with dataAvail := .closed }).xferSelected atn id
  s.xferExecute s.xferTarget

/-- Step C's first lines (R209): the mirror starts over, the counter is the host's again. -/
def dataEntered (s : State) (tc : Count) : State := s.upd fun c => { c with scratchOff := 0 }.setTc tc

@[simp] theorem dataEntered_phase (s : State) (tc : Count) : (s.dataEntered tc).ctl.phase = s.ctl.phase :=
  Controller.phase_setTc _ tc

@[simp] theorem dataEntered_target (s : State) (tc : Count) : (s.dataEntered tc).target = s.target := rfl

theorem dataEntered_eq {u : State} (hregs : (u.ctl.setTc s.ctl.tc).regs = s.ctl.regs.set 0x10 0x45) :
    u.dataEntered s.ctl.tc = { u with ctl := { u.ctl with scratchOff := 0, regs := s.ctl.regs.set 0x10 0x45 } } := by
  rw [← hregs]
  rfl

/-- Target `t` has taken and reported the command in the chip's registers (R207). -/
def newCommand (s : State) (t : Target) : Target := (t.commanded s.ctl).analyzed (s.analyzeAnswer t)

theorem newCommand_cmdLength (s : State) (t : Target) : (s.newCommand t).cmdLength ≤ 12 :=
  Nat.le_of_lt_succ (s.analyzeAnswer t).cmdLength.isLt

/-- Step A has taken a new command, in phase `p` (R207). -/
def taken (s : State) (id : Fin 8) (t : Target) (p : Byte) : State :=
  { s with
    draws := s.drawsAnalyzed t
    ctl := { s.ctl with
      dataAvail := .closed, curTarget := some id, selected := true
      targets := s.ctl.targets.set id.val (some (s.newCommand t).begin)
      regs := (((s.ctl.setPhase p).setPhase (PHASE_COMMAND + BitVec.ofNat 8 (s.newCommand t).cmdLength)).setTc 0).regs
      scratch := s.ctl.commandMirror (s.newCommand t), scratchOff := (s.newCommand t).cmdLength } }

theorem xferSelected_takes (hnew : s.ctl.startsCommand) (ht : s.ctl.targets[id.val] = some t) (atn : Bool) :
    ∃ p, (s.upd fun c => { c with dataAvail := .closed }).xferSelected atn id = s.taken id t p := by
  have hnew' : (s.upd fun c => { c with dataAvail := .closed }).ctl.startsCommand := hnew
  obtain ⟨p, hselected⟩ := xferSelected_new hnew' atn id
  have hcur : (s.upd fun c => { c with dataAvail := .closed, curTarget := some id, selected := true }.setPhase p).Current
    id t := ⟨rfl, ht⟩
  have hcommanded : t.commanded (s.upd fun c =>
      { c with dataAvail := .closed, curTarget := some id, selected := true }.setPhase p).ctl = t.commanded s.ctl :=
    congrArg (fun cmd => { t with status := 0, cmd := cmd }) (Controller.cdbInto_setPhase p t.cmd)
  refine ⟨p, ?_⟩
  rw [hselected, State.upd_upd, hcur.xferCommand, hcommanded]
  rfl

theorem taken_phase (s : State) (id : Fin 8) (t : Target) (p : Byte) : (s.taken id t p).ctl.phase.toNat ≤ 0x41 := by
  have hphase : (s.taken id t p).ctl.phase = PHASE_COMMAND + BitVec.ofNat 8 (s.newCommand t).cmdLength :=
    (Controller.phase_setTc _ _).trans (Controller.phase_setPhase _ _)
  have hcommand : PHASE_COMMAND.toNat = 0x30 := rfl
  have hlen := s.newCommand_cmdLength t
  rw [hphase, BitVec.toNat_add, BitVec.toNat_ofNat, hcommand]
  omega

theorem begun_new (hnew : s.ctl.startsCommand) (ht : s.ctl.targets[id.val] = some t) (atn : Bool) :
    (s.begun atn id).dataEntered s.ctl.tc = s.atData id t := by
  obtain ⟨p, htaken⟩ := xferSelected_takes hnew ht atn
  have hcur : (s.taken id t p).Current id (s.newCommand t).begin := ⟨rfl, by simp [taken]⟩
  have hbegun : s.begun atn id = ((s.taken id t p).holding id ((s.newCommand t).started (s.drawsAnalyzed t)).1
      ((s.newCommand t).started (s.drawsAnalyzed t)).2).upd fun c => c.setPhase PHASE_DATA := by
    rw [begun, htaken, State.xferTarget, hcur.target, Option.getD_some, hcur.xferExecute_starts (s.taken_phase id t p),
      Target.started_begin]
    rfl
  have hregs : ((s.begun atn id).ctl.setTc s.ctl.tc).regs = s.ctl.regs.set 0x10 0x45 := by
    have hphases : ((((s.ctl.setPhase p).setPhase
        (PHASE_COMMAND + BitVec.ofNat 8 (s.newCommand t).cmdLength)).setTc 0).setPhase PHASE_DATA).regs =
          ((s.ctl.setPhase PHASE_DATA).setTc 0).regs := by
      rw [← Controller.setTc_setPhase, Controller.setPhase_setPhase, Controller.setPhase_setPhase]
    refine Controller.regs_setTc_back (v := 0) ?_
    rw [hbegun]
    exact hphases
  have hmirror : s.ctl.commandMirror ((s.newCommand t).started (s.drawsAnalyzed t)).1 =
      s.ctl.commandMirror (s.newCommand t) := by
    obtain ⟨hcmd, hlen⟩ := (s.newCommand t).started_cmd (s.drawsAnalyzed t)
    rw [Controller.commandMirror, hcmd, hlen, Controller.commandMirror]
  rw [dataEntered_eq hregs, hbegun, atData, readyForData_new t hnew, Controller.mirrorForData, if_pos hnew]
  rw [← newCommand, hmirror]
  simp only [State.upd, holding, taken, Vector.set_set]
  rfl

/-- A command that was not new (R208): the target is `u` after step B, and the mirror stands. -/
theorem atData_resumed (h : ¬s.ctl.startsCommand) {u : Target} {n : Nat} (hr : s.readyForData t = (u, n)) :
    s.atData id t = { s with
      draws := n
      ctl := { s.ctl with
        dataAvail := .closed, curTarget := some id, targets := s.ctl.targets.set id.val (some u)
        regs := s.ctl.regs.set 0x10 0x45, scratchOff := 0 } } := by
  rw [atData, hr, Controller.mirrorForData, if_neg h, ← (Controller.not_startsCommand_iff.mp h).1]

/-- A command is resumed: step A closes the transfer and finds the target (R207). -/
def resumed (s : State) (id : Fin 8) : State := s.upd fun c => { c with dataAvail := .closed, curTarget := some id }

theorem resumed_current (ht : s.ctl.targets[id.val] = some t) : (s.resumed id).Current id t := ⟨rfl, ht⟩

theorem begun_resumed (h : ¬s.ctl.startsCommand) (ht : s.ctl.targets[id.val] = some t) (atn : Bool) :
    s.begun atn id = (s.resumed id).xferExecute t := by
  have hselected := xferSelected_resumed (s := s.upd fun c => { c with dataAvail := .closed }) h atn id
  rw [State.upd_upd, ← resumed] at hselected
  rw [begun, hselected, State.xferTarget, (resumed_current ht).target, Option.getD_some]

/-- Step B leaves a command alone that has been received before (R208). -/
theorem begun_late (h : ¬s.ctl.startsCommand) (hp : ¬s.ctl.phase.toNat ≤ 0x41)
    (ht : s.ctl.targets[id.val] = some t) (atn : Bool) : s.begun atn id = s.resumed id :=
  (begun_resumed h ht atn).trans (if_neg hp)

theorem begun_received (h : ¬s.ctl.startsCommand) (hp : s.ctl.phase.toNat ≤ 0x41)
    (ht : s.ctl.targets[id.val] = some t) (atn : Bool) :
    (s.begun atn id).dataEntered s.ctl.tc = s.atData id t := by
  have hbegun : s.begun atn id = ((s.resumed id).holding id (t.started s.draws).1 (t.started s.draws).2).upd
      fun c => c.setPhase PHASE_DATA :=
    (begun_resumed h ht atn).trans ((resumed_current ht).xferExecute_starts hp)
  have hregs : ((s.begun atn id).ctl.setTc s.ctl.tc).regs = s.ctl.regs.set 0x10 0x45 := by
    refine Controller.regs_setTc_back (v := s.ctl.tc) ?_
    rw [Controller.setPhase_setTc_self, hbegun]
    rfl
  rw [dataEntered_eq hregs, atData_resumed h (State.readyForData_received t h hp), hbegun]
  rfl

theorem begun_moving (h : ¬s.ctl.startsCommand) (hp : s.ctl.phase = 0x45)
    (ht : s.ctl.targets[id.val] = some t) (atn : Bool) :
    (s.begun atn id).dataEntered s.ctl.tc = s.atData id t := by
  have hlate : ¬s.ctl.phase.toNat ≤ 0x41 := hp ▸ by decide
  have hbegun := begun_late h hlate ht atn
  have hregs : ((s.begun atn id).ctl.setTc s.ctl.tc).regs = s.ctl.regs.set 0x10 0x45 := by
    refine Controller.regs_setTc_back (v := s.ctl.tc) ?_
    rw [Controller.setPhase_setTc_self, Controller.setPhase_phase_self hp, hbegun]
    rfl
  rw [dataEntered_eq hregs, atData_resumed h (State.readyForData_moving t h hlate), hbegun]
  have htargets : s.ctl.targets.set id.val (some t) = s.ctl.targets := by rw [← ht]; simp
  rw [htargets]
  rfl

/-- Steps A and B where Select-and-Transfer reaches the data phase. -/
theorem begun_atData (ht : s.ctl.targets[id.val] = some t)
    (hreach : s.ctl.selected = false ∨ s.ctl.phase.toNat ≤ 0x41 ∨ s.ctl.phase = 0x45) (atn : Bool) :
    (s.begun atn id).dataEntered s.ctl.tc = s.atData id t := by
  by_cases hnew : s.ctl.startsCommand
  · exact begun_new hnew ht atn
  · by_cases hp : s.ctl.phase.toNat ≤ 0x41
    · exact begun_received hnew hp ht atn
    · have hunselected : ¬s.ctl.selected = false := fun h => hnew (.inl h)
      exact begun_moving hnew ((hreach.resolve_left hunselected).resolve_left hp) ht atn

theorem atData_current (s : State) (id : Fin 8) (t : Target) :
    (s.atData id t).Current id (s.readyForData t).1 := ⟨rfl, by simp [atData]⟩

theorem atData_phase (s : State) (id : Fin 8) (t : Target) : (s.atData id t).ctl.phase = 0x45 :=
  s.ctl.phase_setPhase 0x45

/-- Only the phase among the chip's registers has changed. -/
theorem atData_reg {r : RegNum} (h : COMMAND_PHASE ≠ r) : (s.atData id t).ctl.reg r = s.ctl.reg r :=
  s.ctl.reg_setPhase_ne h 0x45

theorem atData_tc (s : State) (id : Fin 8) (t : Target) : (s.atData id t).ctl.tc = s.ctl.tc := s.ctl.tc_setPhase 0x45

theorem atData_canDma (s : State) (id : Fin 8) (t : Target) : (s.atData id t).ctl.canDma = s.ctl.canDma :=
  s.ctl.setPhase_canDma 0x45

end State
end Sys2Proof.Machine
end

section
/-! The end of Select-and-Transfer (42_chip_commands.md R209, R210, R214 to R216): steps C to E. -/

namespace Sys2Proof.Machine

/-! ### Completion (R215) -/

/-- Select-and-Transfer is complete: the statuses posted are one or, unless EDI is set, two. -/
def Controller.completed (c : Controller) : Controller :=
  let first := c.queue.set c.qIndex { status := 0x16, count := 2 }
  let next := (c.qIndex + 1) % c.cfg.qcap
  { c with
    selected := false
    regs := c.regs.set 0x10 0x60
    queue := if c.regs[0x01].getLsbD 3 then first else first.set next { status := 0x85, count := 4 }
    qIndex := if c.regs[0x01].getLsbD 3 then next else (next + 1) % c.cfg.qcap }

/-- It ends in phase 0x60, whatever the phase was. -/
theorem Controller.completed_setPhase (c : Controller) (p : Byte) : (c.setPhase p).completed = c.completed := by
  have hcontrol : (c.setPhase p).regs[0x01] = c.regs[0x01] := c.reg_setPhase_ne (i := CONTROL) (by decide) p
  have hphase : (c.setPhase p).regs.set 0x10 0x60 = c.regs.set 0x10 0x60 := Vector.set_set ..
  simp only [completed, hcontrol, hphase]
  rfl

theorem Controller.completed_setPhase_setReg (c : Controller) (p v : Byte) :
    ((c.setPhase p).setReg TARGET_LUN v).completed =
      { c.completed with regs := (c.regs.set 0x0F v).set 0x10 0x60 } := by
  have hcontrol : (c.setReg TARGET_LUN v).regs[0x01] = c.regs[0x01] := c.reg_setReg_ne (j := CONTROL) (by decide) v
  rw [setPhase, setReg_comm _ (by decide), ← setPhase, completed_setPhase, completed, hcontrol]
  rfl

theorem State.xferComplete_eq (s : State) : s.xferComplete = s.upd Controller.completed := by
  have hedi : ({ s.ctl with selected := false }.setPhase PHASE_COMPLETE).edi = s.ctl.regs[0x01].getLsbD 3 := by
    rw [Controller.edi, Controller.reg_setPhase_ne _ (by decide)]
    exact hasBit_twoPow _ 3
  refine State.upd_congr ?_
  dsimp only
  rw [hedi]
  cases hbit : s.ctl.regs[0x01].getLsbD 3 with
  | true =>
    rw [Controller.completed, hbit]
    rfl
  | false =>
    rw [Controller.completed, hbit]
    rfl

/-- The status byte arrives in TARGET_LUN and the command completes (R214, R215). -/
def State.ended (s : State) : State := s.upd fun c => (c.setReg TARGET_LUN s.xferTarget.status).completed

/-- The two steps behind step C (R214, R215), where it has not stopped. -/
def State.xferTail (r : State × Bool) : State := if r.2 then r.1 else (r.1.xferStatus r.1.xferTarget).xferComplete

/-- In the status phase the byte arrives in TARGET_LUN. -/
theorem State.xferTail_status (s : State) :
    State.xferTail (s.upd fun c => c.setPhase PHASE_STATUS, false) = s.ended := by
  have hstatus (t : Target) : (s.upd fun c => c.setPhase PHASE_STATUS).xferStatus t =
      s.upd fun c => ((c.setPhase PHASE_STATUS).setReg TARGET_LUN t.status).setPhase PHASE_MESSAGE_IN :=
    if_pos (s.ctl.phase_setPhase PHASE_STATUS)
  have hregs (v : Byte) : (((s.ctl.setPhase PHASE_STATUS).setReg TARGET_LUN v).setPhase PHASE_MESSAGE_IN).completed =
      (s.ctl.setReg TARGET_LUN v).completed := by
    rw [Controller.completed_setPhase, Controller.setPhase, Controller.setReg_comm _ (by decide)]
    exact Controller.completed_setPhase _ PHASE_STATUS
  simp only [State.xferTail, Bool.false_eq_true, if_false, hstatus, State.xferComplete_eq, State.upd_upd]
  exact State.upd_congr (hregs _)

/-- In the phases past the data TARGET_LUN stands. -/
theorem State.xferTail_late {s : State} (h : s.ctl.phase ≠ 0x46) :
    State.xferTail (s, false) = s.upd Controller.completed := by
  have hstatus (t : Target) : s.xferStatus t = s := if_neg h
  simp only [State.xferTail, Bool.false_eq_true, if_false, hstatus, State.xferComplete_eq]

/-! ### Step C (R209, R210) -/

/-- Step C's transfer, where target `t` has data. -/
def State.xferMoves (s : State) (t : Target) : State × Bool := if t.hasData then s.xferData t else (s, false)

/-- What follows it: a stop, or the end of the command. -/
def State.xferFinish (r : State × Bool) : State := if r.2 then r.1 else r.1.ended

section
variable {s : State} {id : Fin 8} {t : Target}

theorem State.selXfer_found (h : s.ctl.lookup = some id) (atn : Bool) :
    s.selXfer atn = State.xferTail ((s.begun atn id).xferDataPhase s.ctl.tc (s.begun atn id).xferTarget) := by
  have hlookup : (s.upd fun c => { c with dataAvail := .closed }).ctl.lookup = some id := h
  simp only [State.selXfer, hlookup]
  rfl

theorem State.xferTail_dataPhase (h : s.ctl.phase = 0x45) (tc : Count) (t : Target) :
    State.xferTail (s.xferDataPhase tc t) = State.xferFinish ((s.dataEntered tc).xferMoves t) := by
  have hphase : s.xferDataPhase tc t =
      if ((s.dataEntered tc).xferMoves t).2 then (s.dataEntered tc).xferMoves t
      else (((s.dataEntered tc).xferMoves t).1.upd fun c => c.setPhase PHASE_STATUS, false) := if_pos h
  rw [hphase]
  cases hstop : ((s.dataEntered tc).xferMoves t).2 with
  | true => simp only [State.xferTail, State.xferFinish, hstop, if_true]
  | false => simp only [State.xferFinish, hstop, Bool.false_eq_true, if_false, State.xferTail_status]

/-- Select-and-Transfer, where it reaches the data phase. -/
theorem State.selXfer_reaching (h : s.ctl.lookup = some id) (ht : s.ctl.targets[id.val] = some t)
    (hreach : s.ctl.selected = false ∨ s.ctl.phase.toNat ≤ 0x41 ∨ s.ctl.phase = 0x45) (atn : Bool) :
    s.selXfer atn = State.xferFinish ((s.atData id t).xferMoves (s.readyForData t).1) := by
  have hentered := State.begun_atData ht hreach atn
  have hphase : (s.begun atn id).ctl.phase = 0x45 := by
    rw [← State.dataEntered_phase _ s.ctl.tc, hentered, State.atData_phase]
  have htarget : (s.begun atn id).target = some (s.readyForData t).1 := by
    rw [← State.dataEntered_target _ s.ctl.tc, hentered, (s.atData_current id t).target]
  rw [State.selXfer_found h, State.xferTail_dataPhase hphase, hentered, State.xferTarget, htarget, Option.getD_some]

/-- A command resumed past the data phase. -/
theorem State.selXfer_late (h : s.ctl.lookup = some id) (ht : s.ctl.targets[id.val] = some t)
    (hs : s.ctl.selected = true) (hp : 0x42 ≤ s.ctl.phase.toNat) (hdata : s.ctl.phase ≠ 0x45) (atn : Bool) :
    s.selXfer atn = { s with
      ctl := { s.ctl with
        dataAvail := .closed, curTarget := some id
        regs := if s.ctl.phase = 0x46 then s.ctl.regs.set 0x0F t.status else s.ctl.regs }.completed } := by
  have hnew : ¬s.ctl.startsCommand := Controller.not_startsCommand_iff.mpr ⟨hs, by omega⟩
  have hpassed : (s.resumed id).xferDataPhase s.ctl.tc (s.resumed id).xferTarget = (s.resumed id, false) := if_neg hdata
  rw [State.selXfer_found h, State.begun_late hnew (by omega) ht, hpassed]
  by_cases h46 : s.ctl.phase = 0x46
  · have hstatus : ((s.resumed id).upd fun c => c.setPhase PHASE_STATUS) = s.resumed id :=
      State.upd_self (Controller.setPhase_phase_self h46)
    rw [← hstatus, State.xferTail_status, State.ended, State.xferTarget, (State.resumed_current ht).target,
      if_pos h46]
    rfl
  · have h46' : (s.resumed id).ctl.phase ≠ 0x46 := h46
    rw [State.xferTail_late h46', if_neg h46]
    rfl

end

/-! ### The three stops (R209) -/

section
variable {s : State} {t : Target}

theorem Target.hasData_iff (t : Target) :
    t.hasData = true ↔ t.direction.isOut = true ∨ (t.direction = .toHost ∧ 0 < t.dataLength) := by
  rw [Target.hasData, Bool.or_eq_true, Bool.and_eq_true, Direction.isIn_iff, decide_eq_true_iff]

/-- `t` has data, so it has a direction. -/
theorem Target.direction_ne_nothing (h : t.hasData = true) : t.direction ≠ .nothing := fun hd => by
  simp [Target.hasData, hd, Direction.isOut, Direction.isIn, Direction.toInt] at h

theorem State.xferMoves_none (h : t.hasData = false) : s.xferMoves t = (s, false) := by
  rw [State.xferMoves, h]
  rfl

theorem State.xferMoves_some (h : t.hasData = true) : s.xferMoves t = s.xferData t := if_pos h

theorem Controller.dirMismatch_eq (c : Controller) {d : Direction} (hd : d ≠ .nothing) :
    c.dirMismatch d = c.otherDirection (decide (d ≠ .toHost)) := by
  have hddir : hasBit c.cntr CNTR_DDIR = c.cntr.getLsbD 3 := hasBit_twoPow _ 3
  cases hv : c.cfg.variant with
  | cbmDmac | cbmSdmac | gvpS1 | gvpS2 | none =>
    simp only [Controller.dirMismatch, Controller.otherDirection, hv, hddir, c.hasBit_gDirw, Direction.isOut_eq hd]

/-- A stop: the status is posted, nothing moves. -/
def State.stopped (s : State) (status : Byte) : State := { s with ctl := s.ctl.awaits status 1 }

theorem State.xferData_of_zero (h : s.ctl.tc = 0) : s.xferData t = (s.stopped (0x48 + dataPh t.direction), true) := by
  rw [State.xferData, if_pos h, State.upd, Controller.post_eq_awaits]
  rfl

theorem State.xferData_of_noDma (h : s.ctl.tc ≠ 0) (hdma : s.ctl.canDma = false) :
    s.xferData t = (s.stopped (0x88 + dataPh t.direction), true) := by
  rw [State.xferData, if_neg h, hdma, State.upd, Controller.post_eq_awaits]
  rfl

theorem State.xferData_of_otherDirection (h : s.ctl.tc ≠ 0) (hdma : s.ctl.canDma = true)
    (hdir : s.ctl.dirMismatch t.direction = true) :
    s.xferData t = (s.stopped (0x48 + dataPh t.direction), true) := by
  rw [State.xferData, if_neg h, hdma, hdir, State.upd, Controller.post_eq_awaits]
  rfl

theorem State.xferData_pumps (h : s.ctl.tc ≠ 0) (hdma : s.ctl.canDma = true)
    (hdir : s.ctl.dirMismatch t.direction = false) : s.xferData t = s.xferPumped t.direction := by
  rw [State.xferData, if_neg h, hdma, hdir]
  rfl

end

/-! ### The statements -/

theorem stopStatus_unexp (d : Direction) : 0x48 + dataPh d = 0x48 ||| if d = .toHost then 0x01 else 0x00 := by
  cases d <;> rfl

theorem stopStatus_srvReq (d : Direction) : 0x88 + dataPh d = 0x88 ||| if d = .toHost then 0x01 else 0x00 := by
  cases d <;> rfl

theorem exec_selXfer {i : Instr} {sbt : Bool} (h : i = .selXfer sbt ∨ i = .selAtnXfer sbt) (s : State) :
    ∃ atn, exec i s = .next (s.selXfer atn) := by
  obtain rfl | rfl := h
  · exact ⟨false, rfl⟩
  · exact ⟨true, rfl⟩

/-- Settles O28: step C passes, and the status byte is taken in phase 0x46 only. -/
theorem selXferResumedLateCompletes : Obligations.SelXferResumedLateCompletes := by
  intro sbt s t id p h7 ht hs hp hdata
  have hfound : s.ctl.lookup = some id := Controller.lookup_of_attached rfl h7 ht
  have hne : s.ctl.phase ≠ 0x45 := fun e => hdata (congrArg BitVec.toNat e)
  have hstatus : s.ctl.phase = 0x46 ↔ p = 0x46 := BitVec.toNat_inj.symm
  have hcontrol : (if p = 0x46 then s.ctl.regs.set 0x0F t.status else s.ctl.regs)[0x01] = s.ctl.regs[0x01] := by
    split
    · exact Vector.getElem_set_ne (by decide) _ (by decide)
    · rfl
  have hdone (atn : Bool) := State.selXfer_late hfound ht hs hp hne atn
  simp only [hstatus, Controller.completed, hcontrol] at hdone
  exact ⟨congrArg Host.Outcome.next (hdone false), congrArg Host.Outcome.next (hdone true)⟩

/-- Settles O29: step C passes over a target without data, and the command ends. -/
theorem selXferRunsACommandWithoutData : Obligations.SelXferRunsACommandWithoutData := by
  intro sbt s t id r first next h7 ht hreach hnone
  have hfound : s.ctl.lookup = some id := Controller.lookup_of_attached rfl h7 ht
  have hdata : r.hasData = false := by
    obtain hd | ⟨hd, hlen⟩ := hnone
    · simp [Target.hasData, hd, Direction.isOut, Direction.isIn, Direction.toInt]
    · simp [Target.hasData, hd, hlen, Direction.isOut, Direction.isIn, Direction.toInt]
  refine ⟨_, s.mirrors_mirrorForData t, fun i hi => ?_⟩
  obtain ⟨atn, hexec⟩ := exec_selXfer hi s
  rw [hexec, State.selXfer_reaching hfound ht hreach, State.xferMoves_none hdata]
  refine congrArg Host.Outcome.next ?_
  show (s.atData id t).ended = _
  rw [State.ended, State.xferTarget, (s.atData_current id t).target]
  exact congrArg (fun c => { s.atData id t with ctl := c }) (Controller.completed_setPhase_setReg
    { s.ctl with
      dataAvail := .closed, curTarget := some id, selected := true, targets := s.ctl.targets.set id.val (some r)
      scratch := s.ctl.mirrorForData r, scratchOff := 0 } 0x45 r.status)

/-- Settles O27: the three tests in order. -/
theorem selXferStopsBeforeTheData : Obligations.SelXferStopsBeforeTheData := by
  intro sbt s t id r h7 ht hreach hdata
  have hfound : s.ctl.lookup = some id := Controller.lookup_of_attached rfl h7 ht
  have hdata : r.hasData = true := r.hasData_iff.mpr hdata
  refine ⟨_, s.mirrors_mirrorForData t, ?_⟩
  intro stopped
  have hstops {status : Byte}
      (hphase : status + dataPh r.direction = status ||| if r.direction = .toHost then 0x01 else 0x00)
      (h : (s.atData id t).xferData r = ((s.atData id t).stopped (status + dataPh r.direction), true)) :
      exec (.selXfer sbt) s = .next (stopped status) ∧ exec (.selAtnXfer sbt) s = .next (stopped status) := by
    have hstop (atn : Bool) : s.selXfer atn = stopped status := by
      rw [State.selXfer_reaching hfound ht hreach, State.xferMoves_some hdata, h, hphase]
      rfl
    exact ⟨congrArg Host.Outcome.next (hstop false), congrArg Host.Outcome.next (hstop true)⟩
  have htc : (s.atData id t).ctl.tc = s.ctl.tc := s.atData_tc id t
  have hcan : (s.atData id t).ctl.canDma = s.ctl.canDma := s.atData_canDma id t
  refine ⟨fun h => hstops (stopStatus_unexp _) (State.xferData_of_zero (htc.trans h)),
    fun h hdma => hstops (stopStatus_srvReq _) (State.xferData_of_noDma (htc ▸ h) (hcan.trans hdma)),
    fun h hdma hdir => hstops (stopStatus_unexp _)
      (State.xferData_of_otherDirection (htc ▸ h) (hcan.trans hdma) ?_)⟩
  exact (Controller.dirMismatch_eq _ (Target.direction_ne_nothing hdata)).trans hdir

end Sys2Proof.Machine
end

section
/-! A Select-and-Transfer that pumps (42_chip_commands.md R209, R210): the pump's start, and the three outcomes. -/

namespace Sys2Proof.Machine

/-! ### The start -/

namespace Acts

theorem begun (s : State) (atn : Bool) (id : Fin 8) : Acts s (s.begun atn id) :=
  ((flags s (fun c => { c with dataAvail := .closed }) ⟨rfl, rfl, rfl, rfl, rfl, rfl, rfl, rfl, rfl, rfl⟩ rfl).trans
    (xferSelected _ atn id)).trans (xferExecute _ _)

theorem dataEntered (s : State) (tc : Count) : Acts s (s.dataEntered tc) :=
  same s ⟨rfl, rfl, rfl, rfl, rfl, rfl, rfl, rfl, rfl, rfl⟩ rfl

/-- Reaching the data phase keeps the controller sound. -/
theorem atData {s : State} {id : Fin 8} {t : Target} (ht : s.ctl.targets[id.val] = some t)
    (hreach : s.ctl.selected = false ∨ s.ctl.phase.toNat ≤ 0x41 ∨ s.ctl.phase = 0x45) : Acts s (s.atData id t) :=
  State.begun_atData ht hreach false ▸ (begun s false id).trans (dataEntered _ s.ctl.tc)

end Acts

section
variable {s : State} {id : Fin 8} {t : Target}

theorem State.atData_pumpBytes :
    pumpBytes (s.atData id t).ctl (s.readyForData t).1 = pumpBytes s.ctl (s.readyForData t).1 := by
  rw [pumpBytes, s.atData_tc id t, pumpBytes]

/-- The board's direction bit agrees (R262). -/
theorem Controller.gDirw_of_agrees {c : Controller} {d : Direction} (hd : d ≠ .nothing)
    (h : c.otherDirection (decide (d ≠ .toHost)) = false) (hv : c.cfg.variant = .gvpS2) :
    c.gcntr.getLsbD 4 = d.isOut := by
  rw [Controller.otherDirection, hv] at h
  rw [Direction.isOut_eq hd]
  exact bne_eq_false_iff_eq.mp h

end

/-! ### After the pump -/

/-- What Select-and-Transfer has moved in `u`, `n` bytes of the target at SCSI ID `i`, since the data phase of a command
of state `s`: the target was `r` then and is `t` now (R209, R210). -/
structure State.AfterData (s u : State) (i : Fin 8) (r t : Target) (n : Nat) : Prop where
  current    : u.Current i t
  closed     : u.ctl.dataAvail = .closed
  offset     : t.offset = r.offset + n
  direction  : t.direction = r.direction
  dataLength : t.dataLength = r.dataLength
  tc         : u.ctl.tc.toNat = s.ctl.tc.toNat - n
  scratchOff : u.ctl.scratchOff = n
  inbound    : r.direction = .toHost → ∀ k b, k < n → Memory.find r.data (r.offset + k) = some b →
    s.ctl.placeLast n k → s.placeKeeps s.ctl k = true → u.placeByte s.ctl k = some b
  outbound   : r.direction ≠ .toHost → u.mem = s.mem ∧ u.ctl.sram = s.ctl.sram ∧
    ∀ k b, k < n → s.placeByte s.ctl k = some b →
      (r.direction = .toDevice → Memory.find t.data (r.offset + k) = some b) ∧
      (r.direction = .command → r.offset + k < 16 → t.cmd[r.offset + k]? = some b)

/-- The chip of state `v` is that of `s` at the data phase, in what the end of a Select-and-Transfer reads. -/
structure State.ChipStands (s v : State) : Prop where
  phase     : v.ctl.phase = 0x45
  selected  : v.ctl.selected = true
  queue     : v.ctl.queue = s.ctl.queue
  qIndex    : v.ctl.qIndex = s.ctl.qIndex
  cfg       : v.ctl.cfg = s.ctl.cfg
  control   : v.ctl.reg CONTROL = s.ctl.reg CONTROL
  targetLun : v.ctl.reg TARGET_LUN = s.ctl.reg TARGET_LUN

theorem State.pumped_reg (s : State) (i : Fin 8) (d : Direction) (n : Nat) (g : Cargo) {k : RegNum} (h1 : TC_MSB ≠ k)
    (h2 : TC_MID ≠ k) (h3 : TC_LSB ≠ k) : (s.pumped i d n g).ctl.reg k = s.ctl.reg k :=
  (Controller.reg_congr (s.pumped_regs i d n g) k).trans (s.ctl.reg_setTc_ne h1 h2 h3 _)

@[simp] theorem State.pumped_selected (s : State) (i : Fin 8) (d : Direction) (n : Nat) (g : Cargo) :
    (s.pumped i d n g).ctl.selected = s.ctl.selected := by unfold State.pumped; split <;> rfl

@[simp] theorem State.pumped_dataAvail (s : State) (i : Fin 8) (d : Direction) (n : Nat) (g : Cargo) :
    (s.pumped i d n g).ctl.dataAvail = s.ctl.dataAvail := by unfold State.pumped; split <;> rfl

section
variable {s : State} {id : Fin 8} {t : Target}

theorem State.Moves.status {i : Fin 8} {bs : List Byte} {g : Cargo} (h : s.Moves i t bs g) :
    g.target.status = t.status := by
  by_cases hin : t.direction = .toHost
  case pos => rw [h.inbound_target hin]
  case neg =>
    rw [h.outbound_target hin]
    by_cases hc : t.direction = .command
    · rw [Target.sends_eq_of_command hc]
    · rw [Target.sends_eq_of_data hc]

theorem State.pumped_chipStands (d : Direction) (n : Nat) (g : Cargo) :
    s.ChipStands ((s.atData id t).pumped id d n g) where
  phase := (State.pumped_phase ..).trans (s.atData_phase id t)
  selected := State.pumped_selected ..
  queue := State.pumped_queue ..
  qIndex := State.pumped_qIndex ..
  cfg := State.pumped_cfg ..
  control := (State.pumped_reg _ _ _ _ _ (by decide) (by decide) (by decide)).trans (State.atData_reg (by decide))
  targetLun := (State.pumped_reg _ _ _ _ _ (by decide) (by decide) (by decide)).trans (State.atData_reg (by decide))

/-- In the data phase the target's data moves (20_memory.md R90). -/
theorem State.movedByte_inbound (hin : (s.readyForData t).1.direction = .toHost) (k : Nat) :
    (s.atData id t).movedByte (s.readyForData t).1 k =
      Memory.find (s.readyForData t).1.data ((s.readyForData t).1.offset + k) := by
  have hphase : (s.atData id t).ctl.regs[0x10] = 0x45 := s.atData_phase id t
  rw [State.movedByte, if_pos hin, hphase, if_neg (by decide), if_neg (by decide)]

theorem State.movedByte_outbound (hout : (s.readyForData t).1.direction ≠ .toHost) (k : Nat) :
    (s.atData id t).movedByte (s.readyForData t).1 k = s.placeByte s.ctl k := if_neg hout

theorem State.Ready.afterData (h : (s.atData id t).Ready id (s.readyForData t).1)
    (hdir : s.ctl.cfg.variant = .gvpS2 → s.ctl.gcntr.getLsbD 4 = (s.readyForData t).1.direction.isOut) :
    ∃ u, s.AfterData (s.atData id t).pump.1 id (s.readyForData t).1 u (pumpBytes s.ctl (s.readyForData t).1) ∧
      s.ChipStands (s.atData id t).pump.1 ∧ u.status = (s.readyForData t).1.status ∧
      u.executeReplies = (s.readyForData t).1.executeReplies := by
  obtain ⟨bs, g, hmoves, hlen, hpump⟩ := h.pump hdir
  have hchip := s.pumped_chipStands (id := id) (t := t) (s.readyForData t).1.direction bs.length g
  obtain ⟨cs, hcs, hgiven, -, hin, hout⟩ :=
    pumpMovesTheDataInOrder (s.atData id t) _ h.ok h.current.target h.direction h.board hdir
  have hcur : (s.atData id t).pump.1.Current id g.target := by
    rw [hpump]
    exact ⟨State.pumped_curTarget .., by simp⟩
  rw [State.atData_pumpBytes] at hcs hgiven hin hout hlen
  refine ⟨g.target, ?_, by rwa [hpump], hmoves.status, hmoves.movedOn.executeReplies⟩
  have hoff := hmoves.movedOn
  rw [hlen] at hoff
  exact {
    current := hcur
    closed := by rw [hpump]; exact State.pumped_dataAvail ..
    offset := hoff.offset
    direction := hoff.direction
    dataLength := hoff.dataLength
    tc := by rw [hpump, State.pumped_tc_toNat, hlen, s.atData_tc id t]
    scratchOff := by rw [hpump, State.pumped_scratchOff, hlen]; exact Nat.zero_add _
    inbound := fun hi k b hk hb hlast hkeeps =>
      ((hin hi).1 k hk hlast hkeeps).trans (hgiven k b hk ((State.movedByte_inbound hi k).trans hb))
    outbound := fun ho => by
      obtain ⟨hmem, hsram, u, hu, hdata, hcmd⟩ := hout ho
      obtain rfl : u = g.target := Option.some.inj (hu.symm.trans hcur.target)
      refine ⟨hmem, hsram, fun k b hk hb => ?_⟩
      have hbyte := hgiven k b hk ((State.movedByte_outbound ho k).trans hb)
      rw [← Nat.add_sub_cancel_left (s.readyForData t).1.offset k] at hbyte
      exact ⟨fun hd => (hdata hd _).trans ((if_pos (by omega)).trans hbyte), fun hc h16 =>
        (Vector.getElem?_eq_getElem h16).trans
          ((hcmd hc ⟨_, h16⟩).trans ((if_pos (by dsimp only; omega)).trans hbyte))⟩ }

end

/-! ### The three outcomes (R210) -/

/-- An outbound command executes after its data; `u` is the target by then. -/
def State.executedOut (s : State) (i : Fin 8) (d : Direction) (u : Target) : State :=
  if d = .toHost then s else s.holding i (u.executed s.draws) (u.drawsExecuted s.draws)

theorem State.executedOut_in (s : State) (i : Fin 8) (u : Target) : s.executedOut i .toHost u = s := rfl

section
variable {s v : State} {i : Fin 8} {u : Target} {d : Direction} (hv : s.pump.1 = v) (h : v.Current i u)
include hv h

/-- Data is left: the command stops where it is. -/
theorem State.xferPumped_left (hlt : u.offset < u.dataLength) :
    s.xferPumped d = (v.stopped (0x48 + dataPh d), true) := by
  simp only [State.xferPumped, hv, h.target, if_pos hlt, State.upd, Controller.post_eq_awaits]
  rfl

theorem State.xferPumped_done (hd : d ≠ .nothing) (hle : u.dataLength ≤ u.offset) :
    s.xferPumped d =
      if (v.executedOut i d u).ctl.tc = 0 then (v.executedOut i d u, false)
      else ((v.executedOut i d u).upd fun c => (c.setPhase 0x46).awaits 0x4B 1, true) := by
  have hexec : (if d.isOut then v.executeTarget else v) = v.executedOut i d u := by
    rw [Direction.isOut_eq hd, State.executedOut, h.executeTarget_holds]
    by_cases hin : d = .toHost <;> simp [hin]
  simp only [State.xferPumped, hv, h.target, if_neg (Nat.not_lt.mpr hle), hexec, Controller.post_eq_awaits]
  rfl

end

/-! ### What the outcomes leave alone -/

/-- `v` has the parts of `u` that the moved bytes and their accounts stand in. -/
structure State.SameData (u v : State) (i : Fin 8) : Prop where
  curTarget  : v.ctl.curTarget = u.ctl.curTarget
  dataAvail  : v.ctl.dataAvail = u.ctl.dataAvail
  tc         : v.ctl.tc = u.ctl.tc
  scratchOff : v.ctl.scratchOff = u.ctl.scratchOff
  mem        : v.mem = u.mem
  memMap     : v.memMap = u.memMap
  sram       : v.ctl.sram = u.ctl.sram
  targets    : v.ctl.targets[i.val] = u.ctl.targets[i.val]

namespace State.AfterData

variable {s u v : State} {i : Fin 8} {r t : Target} {n : Nat}

theorem placeByte_congr {c : Controller} (hmem : v.mem = u.mem) (hmap : v.memMap = u.memMap)
    (hsram : v.ctl.sram = u.ctl.sram) (k : Nat) : v.placeByte c k = u.placeByte c k := by
  unfold State.placeByte
  split <;> simp only [State.memByte_congr hmem hmap, hsram]

/-- The chip's end of a command leaves the data alone. -/
theorem sameData (h : s.AfterData u i r t n) (hs : u.SameData v i) : s.AfterData v i r t n where
  current := ⟨hs.curTarget.trans h.current.curTarget, hs.targets.trans h.current.attached⟩
  closed := hs.dataAvail.trans h.closed
  offset := h.offset
  direction := h.direction
  dataLength := h.dataLength
  tc := hs.tc ▸ h.tc
  scratchOff := hs.scratchOff.trans h.scratchOff
  inbound hi k b hk hb hlast hkeeps :=
    (placeByte_congr hs.mem hs.memMap hs.sram k).trans (h.inbound hi k b hk hb hlast hkeeps)
  outbound ho :=
    let ⟨hmem, hsram, hbytes⟩ := h.outbound ho
    ⟨hs.mem.trans hmem, hs.sram.trans hsram, hbytes⟩

/-- The counter is at zero exactly where as many bytes have moved. -/
theorem tc_eq_zero_iff (h : s.AfterData u i r t n) : u.ctl.tc = 0 ↔ s.ctl.tc.toNat ≤ n := by
  rw [← BitVec.toNat_inj, h.tc]
  exact Nat.sub_eq_zero_iff_le

/-- So does the execution of an outbound command. -/
theorem executedOut (h : s.AfterData u i r t n) :
    s.AfterData (u.executedOut i r.direction t) i r (if r.direction = .toHost then t else t.executed u.draws) n := by
  by_cases hin : r.direction = .toHost
  · rw [hin, State.executedOut_in, if_pos rfl]
    exact h
  · rw [State.executedOut, if_neg hin, if_neg hin, Target.executed_of_ne_toHost (h.direction ▸ hin)]
    exact {
      current := State.holding_current h.current.curTarget ..
      closed := h.closed
      offset := h.offset
      direction := h.direction
      dataLength := h.dataLength
      tc := h.tc
      scratchOff := h.scratchOff
      inbound := fun hi => absurd hi hin
      outbound := h.outbound }

end State.AfterData

theorem State.ChipStands.executedOut {s v : State} (h : s.ChipStands v) (i : Fin 8) (d : Direction) (u : Target) :
    s.ChipStands (v.executedOut i d u) := by
  unfold State.executedOut
  split
  · exact h
  · exact ⟨h.phase, h.selected, h.queue, h.qIndex, h.cfg, h.control, h.targetLun⟩

/-! ### A register beside the counter and the phase -/

theorem Controller.tc_setReg_targetLun (c : Controller) (v : Byte) : (c.setReg TARGET_LUN v).tc = c.tc := by
  simp only [tc, reg_setReg_ne c (show TARGET_LUN ≠ TC_MSB by decide),
    reg_setReg_ne c (show TARGET_LUN ≠ TC_MID by decide), reg_setReg_ne c (show TARGET_LUN ≠ TC_LSB by decide)]

/-- One of the two ends is reached first (R210). -/
theorem pumpBytes_ends (c : Controller) (t : Target) (h : t.offset + pumpBytes c t < t.dataLength) :
    c.tc.toNat ≤ pumpBytes c t := by
  unfold pumpBytes at h ⊢
  omega

section
variable {s x : State} {i : Fin 8} {r t : Target} {n : Nat}

/-- A stop in `phase`: the status is posted, the rest stands. -/
def State.stoppedIn (s : State) (phase status : Byte) : State := s.upd fun c => (c.setPhase phase).awaits status 1

theorem State.stoppedIn_eq_stopped {p : Byte} (h : s.ctl.phase = p) (status : Byte) :
    s.stoppedIn p status = s.stopped status := by
  rw [State.stoppedIn, State.upd, Controller.setPhase_phase_self h, State.stopped]

theorem State.AfterData.stoppedIn (h : s.AfterData x i r t n) (p status : Byte) :
    s.AfterData (x.stoppedIn p status) i r t n :=
  h.sameData ⟨rfl, rfl, x.ctl.tc_setPhase p, rfl, rfl, rfl, rfl, rfl⟩

theorem State.ChipStands.stoppedIn_eq (h : s.ChipStands x) (p status : Byte) :
    x.stoppedIn p status = { x with
      ctl := { x.ctl with
        regs := x.ctl.regs.set 0x10 p
        queue := s.ctl.queue.set s.ctl.qIndex { status := status, count := 1 }
        qIndex := (s.ctl.qIndex + 1) % s.ctl.cfg.qcap } } := by
  rw [← h.queue, ← h.qIndex, ← h.cfg]
  rfl

/-- The chip after a stop. -/
theorem State.ChipStands.stoppedIn (h : s.ChipStands x) (p status : Byte) :
    (x.stoppedIn p status).ctl.regs[0x10] = p ∧ (x.stoppedIn p status).ctl.selected = true ∧
    (x.stoppedIn p status).ctl.regs[0x0F] = s.ctl.regs[0x0F] ∧
    (x.stoppedIn p status).ctl.queue = s.ctl.queue.set s.ctl.qIndex { status := status, count := 1 } ∧
    (x.stoppedIn p status).ctl.qIndex = (s.ctl.qIndex + 1) % s.ctl.cfg.qcap := by
  refine ⟨x.ctl.phase_setPhase p, h.selected, ?_, ?_, ?_⟩
  · exact (x.ctl.reg_setPhase_ne (i := TARGET_LUN) (by decide) p).trans h.targetLun
  · rw [h.stoppedIn_eq]
  · rw [h.stoppedIn_eq]

theorem State.AfterData.ended (h : s.AfterData x i r t n) : s.AfterData x.ended i r t n := by
  refine h.sameData ⟨rfl, rfl, ?_, rfl, rfl, rfl, rfl, rfl⟩
  exact (Controller.tc_setPhase _ 0x60).trans (x.ctl.tc_setReg_targetLun _)

theorem State.Current.ended_eq (h : x.Current i t) :
    x.ended = x.upd fun c => (c.setReg TARGET_LUN t.status).completed := by
  rw [State.ended, State.xferTarget, h.target, Option.getD_some]

/-- The end of a command changes nothing but the phase, TARGET_LUN, `selected` and the queue (R214, R215). -/
theorem State.Current.ended_frame (h : x.Current i t) :
    x.ended = { x with
      ctl := { x.ctl with
        selected := false
        regs := (x.ctl.regs.set 0x0F t.status).set 0x10 0x60
        queue := x.ended.ctl.queue
        qIndex := x.ended.ctl.qIndex } } := by
  rw [h.ended_eq]
  rfl

/-- The chip at the end of a command (R214, R215). -/
theorem State.ChipStands.ended (h : s.ChipStands x) (hx : x.Current i t) :
    let first := s.ctl.queue.set s.ctl.qIndex { status := 0x16, count := 2 }
    let next := (s.ctl.qIndex + 1) % s.ctl.cfg.qcap
    x.ended.ctl.regs[0x10] = 0x60 ∧ x.ended.ctl.regs[0x0F] = t.status ∧ x.ended.ctl.selected = false ∧
    x.ended.ctl.queue = (if s.ctl.regs[0x01].getLsbD 3 then first else first.set next { status := 0x85, count := 4 }) ∧
    x.ended.ctl.qIndex = (if s.ctl.regs[0x01].getLsbD 3 then next else (next + 1) % s.ctl.cfg.qcap) := by
  have hcontrol : (x.ctl.setReg TARGET_LUN t.status).regs[0x01] = s.ctl.regs[0x01] :=
    (x.ctl.reg_setReg_ne (j := CONTROL) (by decide) _).trans h.control
  rw [hx.ended_eq, State.upd_ctl, Controller.completed, hcontrol, ← h.queue, ← h.qIndex, ← h.cfg]
  refine ⟨Vector.getElem_set_self (by decide), ?_, rfl, rfl, rfl⟩
  exact ((x.ctl.setReg TARGET_LUN t.status).reg_setPhase_ne (by decide) 0x60).trans (x.ctl.reg_setReg_same _ _)

end

/-- Of an outbound target the replies to `execute` are still there (R208). -/
theorem State.readyForData_executeReplies (s : State) {t : Target}
    (h : (s.readyForData t).1.direction.isOut = true) : (s.readyForData t).1.executeReplies = t.executeReplies := by
  by_cases hnew : s.ctl.startsCommand
  · rw [State.readyForData_new t hnew] at h ⊢
    rw [Target.started_outbound h]
    rfl
  · by_cases hp : s.ctl.phase.toNat ≤ 0x41
    · rw [State.readyForData_received t hnew hp] at h ⊢
      rw [Target.started_outbound h]
      rfl
    · rw [State.readyForData_moving t hnew hp]

theorem leftStatus (d : Direction) : 0x48 + dataPh d = if d = .toHost then 0x49 else 0x48 := by cases d <;> rfl

section
variable {s v : State} {i : Fin 8} {u : Target} {d : Direction} (hv : s.pump.1 = v) (h : v.Current i u)
include hv h

/-- Data is left (R210). -/
theorem State.xferFinish_left (hp : v.ctl.phase = 0x45) (hlt : u.offset < u.dataLength) :
    State.xferFinish (s.xferPumped d) = v.stoppedIn 0x45 (if d = .toHost then 0x49 else 0x48) := by
  rw [State.xferPumped_left hv h hlt, leftStatus, State.stoppedIn_eq_stopped hp]
  rfl

/-- The target is at its end (R210): so is the command, unless the counter is not. -/
theorem State.xferFinish_done (hd : d ≠ .nothing) (hle : u.dataLength ≤ u.offset) :
    State.xferFinish (s.xferPumped d) =
      if (v.executedOut i d u).ctl.tc = 0 then (v.executedOut i d u).ended
      else (v.executedOut i d u).stoppedIn 0x46 0x4B := by
  rw [State.xferPumped_done hv h hd hle]
  split <;> rfl

end

/-- Settles O30: the pump runs from the data phase, and its three outcomes follow. -/
theorem selXferMovesTheData : Obligations.SelXferMovesTheData := by
  intro sbt s t id r inbound n hok h7 ht hreach hboard hdma hdir hdata htc i hi
  have hfound : s.ctl.lookup = some id := Controller.lookup_of_attached rfl h7 ht
  have hhas : r.hasData = true := r.hasData_iff.mpr hdata
  have hnone : r.direction ≠ .nothing := Target.direction_ne_nothing hhas
  have hmatch : (s.atData id t).ctl.dirMismatch r.direction = false := (Controller.dirMismatch_eq _ hnone).trans hdir
  obtain ⟨u, hmoved, hchip, hstatus, hreplies⟩ := State.Ready.afterData (s := s) (id := id) (t := t)
    ⟨s.atData_current id t, hnone, hboard, (Acts.atData ht hreach).ok hok⟩ (Controller.gDirw_of_agrees hnone hdir)
  have houtReplies (hout : ¬inbound) : u.executeReplies = t.executeReplies :=
    hreplies.trans (s.readyForData_executeReplies (by rw [Direction.isOut_eq hnone]; exact decide_eq_true hout))
  obtain ⟨atn, hexec⟩ := exec_selXfer hi s
  rw [State.selXfer_reaching hfound ht hreach, State.xferMoves_some hhas,
    State.xferData_pumps ((s.atData_tc id t) ▸ htc) ((s.atData_canDma id t).trans hdma) hmatch] at hexec
  by_cases hleft : r.offset + n < r.dataLength
  case pos =>
    have hcount : s.ctl.tc.toNat ≤ n := pumpBytes_ends s.ctl r hleft
    rw [State.xferFinish_left rfl hmoved.current hchip.phase (by rwa [hmoved.offset, hmoved.dataLength])] at hexec
    have hdone := hmoved.stoppedIn 0x45 (if r.direction = .toHost then 0x49 else 0x48)
    exact ⟨_, _, u, s.mirrors_mirrorForData t, hexec, hdone.current.attached, hdone.current.curTarget,
      ⟨u, hmoved.current.target, fun _ => hchip.stoppedIn_eq _ _, fun h => by omega, fun h => by omega⟩,
      hdone.closed, hdone.offset, hdone.direction, hdone.dataLength, hdone.tc, hdone.scratchOff,
      fun hin => ⟨hstatus, hdone.inbound hin⟩,
      fun hout => ⟨(hdone.outbound hout).1, (hdone.outbound hout).2.1, (hdone.outbound hout).2.2, fun _ => hstatus,
        fun _ h => by omega⟩,
      fun _ => hchip.stoppedIn _ _, fun h => by omega, fun h => by omega⟩
  case neg =>
    have hle : r.dataLength ≤ r.offset + n := Nat.not_lt.mp hleft
    rw [State.xferFinish_done rfl hmoved.current hnone (by rwa [hmoved.offset, hmoved.dataLength])] at hexec
    have hexecuted := hmoved.executedOut
    have hchip' := hchip.executedOut id r.direction u
    have hin (h : inbound) :
        (if r.direction = .toHost then u else u.executed (s.atData id t).pump.1.draws).status = r.status := by
      rw [if_pos h, hstatus]
    have hout (h : ¬inbound) (e : ExecuteReply) (he : t.executeReplies.head? = some e) :
        (if r.direction = .toHost then u else u.executed (s.atData id t).pump.1.draws).status = e.status := by
      rw [if_neg h, Target.executed_of_ne_toHost (hmoved.direction ▸ h), Target.executeAnswer, houtReplies h, he]
      rfl
    generalize (if r.direction = .toHost then u else u.executed (s.atData id t).pump.1.draws) = t' at hexecuted hin hout
    split at hexec
    case isTrue hzero =>
      have hcount : s.ctl.tc.toNat ≤ n := hexecuted.tc_eq_zero_iff.mp hzero
      have hdone := hexecuted.ended
      exact ⟨_, _, t', s.mirrors_mirrorForData t, hexec, hdone.current.attached, hdone.current.curTarget,
        ⟨u, hmoved.current.target, fun h => absurd h hleft, fun h => by omega,
          fun _ _ => hexecuted.current.ended_frame⟩,
        hdone.closed, hdone.offset, hdone.direction, hdone.dataLength, hdone.tc, hdone.scratchOff,
        fun h => ⟨hin h, hdone.inbound h⟩,
        fun h => ⟨(hdone.outbound h).1, (hdone.outbound h).2.1, (hdone.outbound h).2.2, fun hl => absurd hl hleft,
          fun e _ he => hout h e he⟩,
        fun h => absurd h hleft, fun h => by omega, fun _ _ => hchip'.ended hexecuted.current⟩
    case isFalse hmore =>
      have hcount : n < s.ctl.tc.toNat := Nat.not_le.mp (hexecuted.tc_eq_zero_iff.not.mp hmore)
      have hdone := hexecuted.stoppedIn 0x46 0x4B
      exact ⟨_, _, t', s.mirrors_mirrorForData t, hexec, hdone.current.attached, hdone.current.curTarget,
        ⟨u, hmoved.current.target, fun h => absurd h hleft, fun _ => hchip'.stoppedIn_eq _ _, fun _ h => by omega⟩,
        hdone.closed, hdone.offset, hdone.direction, hdone.dataLength, hdone.tc, hdone.scratchOff,
        fun h => ⟨hin h, hdone.inbound h⟩,
        fun h => ⟨(hdone.outbound h).1, (hdone.outbound h).2.1, (hdone.outbound h).2.2, fun hl => absurd hl hleft,
          fun e _ he => hout h e he⟩,
        fun h => absurd h hleft, fun _ => hchip'.stoppedIn _ _, fun _ h => by omega⟩

end Sys2Proof.Machine
end

section
/-! The frame of Select-and-Transfer (42_chip_commands.md R207 to R215; 60_exceptions.md R373): `XferActs` says what
each of its parts leaves alone, memory aside, and `BytesStand` what a pump leaves of memory. -/

namespace Sys2Proof.Machine

/-! ### The parts of Select-and-Transfer -/

/-- `u` comes from `s` by a part of Select-and-Transfer on the target at SCSI ID `i`; memory is no part of this. -/
structure State.XferActs (i : Option (Fin 8)) (s u : State) : Prop where
  rest : u = { s with
    mem := u.mem, draws := u.draws, others := u.others, irqLine := u.irqLine
    ctl := { s.ctl with
      regs := u.ctl.regs, selected := u.ctl.selected, dataAvail := u.ctl.dataAvail, curTarget := u.ctl.curTarget
      targets := u.ctl.targets, queue := u.ctl.queue, qIndex := u.ctl.qIndex, scratch := u.ctl.scratch
      scratchOff := u.ctl.scratchOff, acr := u.ctl.acr, wtc := u.ctl.wtc, istr := u.ctl.istr, gaddr := u.ctl.gaddr
      sram := u.ctl.sram, sramOff := u.ctl.sramOff } }
  regs : ∀ k : Fin 32, k.val ∉ [0x0F, 0x10, 0x12, 0x13, 0x14] → u.ctl.regs[k.val] = s.ctl.regs[k.val]
  targets : ∀ k : Fin 8, some k ≠ i → u.ctl.targets[k.val] = s.ctl.targets[k.val]
  istr : u.ctl.istr ||| 0x60 = s.ctl.istr ||| 0x60
  line : (u.others = s.others ∧ u.irqLine = s.irqLine ∧ u.ctl.istr = s.ctl.istr) ∨
    (u.others = s.others.map Controller.foldLatch ∧ u.LineOk)

namespace State.XferActs

variable {s u v : State} {i : Option (Fin 8)}

/-- A part that leaves the board, memory and the line alone. -/
theorem chip (rest : u = { s with
      draws := u.draws
      ctl := { s.ctl with
        regs := u.ctl.regs, selected := u.ctl.selected, dataAvail := u.ctl.dataAvail, curTarget := u.ctl.curTarget
        targets := u.ctl.targets, queue := u.ctl.queue, qIndex := u.ctl.qIndex, scratch := u.ctl.scratch
        scratchOff := u.ctl.scratchOff } })
    (regs : ∀ k : Fin 32, k.val ∉ [0x0F, 0x10, 0x12, 0x13, 0x14] → u.ctl.regs[k.val] = s.ctl.regs[k.val])
    (targets : ∀ k : Fin 8, some k ≠ i → u.ctl.targets[k.val] = s.ctl.targets[k.val]) : XferActs i s u where
  rest := by rw [rest]
  regs := regs
  targets := targets
  istr := by rw [rest]
  line := .inl (by rw [rest]; exact ⟨rfl, rfl, rfl⟩)

/-- The line reads nothing that a part changes, but for the requests of the board. -/
theorem lineOk (h : XferActs i s u) (hline : s.LineOk) (hothers : u.others = s.others) (hirq : u.irqLine = s.irqLine)
    (histr : u.ctl.istr = s.ctl.istr) : u.LineOk := by
  have hsame : s.ctl.SameLine u.ctl := by
    rw [h.rest]
    exact ⟨rfl, rfl, rfl, rfl, histr, rfl, rfl, fun _ => rfl⟩
  exact (hline.upd (f := fun _ => u.ctl) hsame).rest rfl hothers hirq

theorem trans (h : XferActs i s v) (k : XferActs i v u) : XferActs i s u where
  rest := k.rest.trans (by rw [h.rest])
  regs j hj := (k.regs j hj).trans (h.regs j hj)
  targets j hj := (k.targets j hj).trans (h.targets j hj)
  istr := k.istr.trans h.istr
  line := by
    obtain ⟨ho, hi, hr⟩ | ⟨ho, hl⟩ := h.line <;> obtain ⟨ho', hi', hr'⟩ | ⟨ho', hl'⟩ := k.line
    · exact .inl ⟨ho'.trans ho, hi'.trans hi, hr'.trans hr⟩
    · exact .inr ⟨by rw [ho', ho], hl'⟩
    · exact .inr ⟨ho'.trans ho, k.lineOk hl ho' hi' hr'⟩
    · refine .inr ⟨?_, hl'⟩
      rw [ho', ho, List.map_map]
      exact List.map_congr_left fun c _ => c.foldLatch_idem

/-! ### The registers and the targets of a part -/

/-- The registers a part writes. -/
theorem getElem_set_of_notMem (regs : Vector Byte 32) (v : Byte) {r : Fin 32}
    (hr : r.val ∈ [0x0F, 0x10, 0x12, 0x13, 0x14]) (k : Fin 32) (hk : k.val ∉ [0x0F, 0x10, 0x12, 0x13, 0x14]) :
    (regs.set r.val v)[k.val] = regs[k.val] :=
  Vector.getElem_set_ne r.isLt k.isLt fun e => hk (e ▸ hr)

theorem getElem_set_of_ne {ts : Vector (Option Target) 8} {j : Fin 8} {t : Option Target} (k : Fin 8)
    (hk : some k ≠ some j) : (ts.set j.val t)[k.val] = ts[k.val] :=
  Vector.getElem_set_ne j.isLt k.isLt fun e => hk (congrArg some (Fin.ext e.symm))


/-! ### Each part -/

theorem atData (s : State) (id : Fin 8) (t : Target) : XferActs (some id) s (s.atData id t) :=
  chip rfl (getElem_set_of_notMem _ _ (r := 0x10) (by decide)) getElem_set_of_ne

/-- The fall of the word counter, on a Commodore board, folds the latches and recomputes the line (R266). -/
theorem pumped (s : State) (id : Fin 8) (d : Direction) (n : Nat) (g : Cargo) :
    XferActs (some id) s (s.pumped id d n g) where
  rest := by
    unfold State.pumped
    split
    case isTrue hend =>
      have hcommodore : s.ctl.commodore := by_contra fun hc => Controller.not_wordsEnd_of_not_commodore hc n hend
      have hgcntr : (s.ctl.pumped id d n g).foldedGcntr = s.ctl.gcntr := by
        rw [Controller.foldedGcntr_eq, if_neg]
        · rfl
        · rintro ⟨hv, -⟩
          have hv : s.ctl.cfg.variant = .gvpS2 := hv
          simp [Controller.commodore, hv] at hcommodore
      simp only [State.recompute, State.moved, Controller.foldLatch, hgcntr]
      rfl
    case isFalse => rfl
  regs k hk := by
    simp only [List.mem_cons, List.not_mem_nil, or_false, not_or] at hk
    obtain ⟨-, -, h12, h13, h14⟩ := hk
    exact s.pumped_reg id d n g (k := BitVec.ofFin k) (fun e => h12 (congrArg BitVec.toNat e).symm)
      (fun e => h13 (congrArg BitVec.toNat e).symm) (fun e => h14 (congrArg BitVec.toNat e).symm)
  targets k hk := by rw [State.pumped_targets]; exact getElem_set_of_ne k hk
  istr := by
    unfold State.pumped
    split
    case isTrue hend =>
      show (s.ctl.pumped id d n g).foldedIstr ||| 0x60 = _
      have hpumped : (s.ctl.pumped id d n g).istr = s.ctl.istr ||| 0x20 := if_pos hend
      rw [Controller.foldedIstr_eq, hpumped]
      split
      · rw [BitVec.or_assoc, BitVec.or_assoc]; rfl
      · rw [BitVec.or_assoc]; rfl
    case isFalse hend => exact congrArg (· ||| 0x60) (s.ctl.pumped_istr id d g hend)
  line := by
    unfold State.pumped
    split
    case isTrue => exact .inr ⟨rfl, State.recompute_lineOk _⟩
    case isFalse hend => exact .inl ⟨rfl, rfl, s.ctl.pumped_istr id d g hend⟩

end State.XferActs

/-! ### The bytes -/

/-- No byte of host memory or of the Series I buffer has changed, but at the places of `n` bytes from the registers of
`c` on. -/
structure State.BytesStand (c : Controller) (n : Nat) (s u : State) : Prop where
  host : ∀ a : Word, (∀ k, k < n → c.pumpAddress k ≠ some a) → u.memByte a = s.memByte a
  buffer : ∀ j, ¬c.sramPlace n j → Memory.find u.ctl.sram j = Memory.find s.ctl.sram j

namespace State.BytesStand

variable {s u v : State} {c : Controller} {n : Nat}

theorem of_sameMemory (h : s.SameMemory u) (hmap : u.memMap = s.memMap) : BytesStand c n s u where
  host a _ := State.memByte_congr h.mem hmap a
  buffer j _ := by rw [h.sram]

theorem trans (h : BytesStand c n s v) (k : BytesStand c n v u) : BytesStand c n s u where
  host a ha := (k.host a ha).trans (h.host a ha)
  buffer j hj := (k.buffer j hj).trans (h.buffer j hj)

end State.BytesStand

/-! ### What follows the pump (R210, R214, R215) -/

/-- A part that leaves memory, the transfer and the choice of the target alone too. -/
structure State.XferEnds (id : Fin 8) (s u : State) : Prop where
  acts : XferActs (some id) s u
  memory : s.SameMemory u
  curTarget : u.ctl.curTarget = s.ctl.curTarget
  dataAvail : u.ctl.dataAvail = s.ctl.dataAvail

namespace State.XferEnds

variable {s u v : State} {id : Fin 8}

theorem trans (h : XferEnds id s v) (k : XferEnds id v u) : XferEnds id s u :=
  ⟨h.acts.trans k.acts, h.memory.trans k.memory, k.curTarget.trans h.curTarget, k.dataAvail.trans h.dataAvail⟩

theorem stopped (s : State) (status : Byte) : XferEnds id s (s.stopped status) :=
  ⟨.chip rfl (fun _ _ => rfl) fun _ _ => rfl, ⟨rfl, rfl⟩, rfl, rfl⟩

theorem stoppedIn (s : State) (p status : Byte) : XferEnds id s (s.stoppedIn p status) :=
  ⟨.chip rfl (XferActs.getElem_set_of_notMem _ _ (r := 0x10) (by decide)) fun _ _ => rfl, ⟨rfl, rfl⟩, rfl, rfl⟩

theorem ended (s : State) : XferEnds id s s.ended :=
  ⟨.chip rfl (fun k hk => (XferActs.getElem_set_of_notMem _ _ (r := 0x10) (by decide) k hk).trans
    (XferActs.getElem_set_of_notMem _ _ (r := 0x0F) (by decide) k hk)) fun _ _ => rfl, ⟨rfl, rfl⟩, rfl, rfl⟩

theorem executedOut (s : State) (d : Direction) (t : Target) : XferEnds id s (s.executedOut id d t) := by
  unfold State.executedOut
  split
  · exact ⟨.chip rfl (fun _ _ => rfl) fun _ _ => rfl, ⟨rfl, rfl⟩, rfl, rfl⟩
  · exact ⟨.chip rfl (fun _ _ => rfl) XferActs.getElem_set_of_ne, ⟨rfl, rfl⟩, rfl, rfl⟩

/-- The three outcomes of a pump that has left `v`. -/
theorem xferPumped {t : Target} {d : Direction} (hv : s.pump.1 = v) (h : v.Current id t) (hp : v.ctl.phase = 0x45)
    (hd : d ≠ .nothing) : XferEnds id v (State.xferFinish (s.xferPumped d)) := by
  by_cases hleft : t.offset < t.dataLength
  · rw [State.xferFinish_left hv h hp hleft]
    exact stoppedIn v _ _
  · rw [State.xferFinish_done hv h hd (Nat.not_lt.mp hleft)]
    split
    · exact (executedOut v d t).trans (ended _)
    · exact (executedOut v d t).trans (stoppedIn _ _ _)

end State.XferEnds

/-! ### The whole command -/

/-- What Select-and-Transfer leaves alone in `u`, where its pump has moved `n` bytes to the host. -/
structure State.XferLeaves (s u : State) (n : Nat) : Prop where
  acts : XferActs u.ctl.curTarget s u
  closed : u.ctl.dataAvail = .closed
  bytes : BytesStand s.ctl n s u

/-- The pump itself: on the pure-XT board it refuses (log 27). -/
theorem State.Current.pump_leaves {s : State} {id : Fin 8} {t : Target} (h : s.Current id t) (hok : s.ctl.ok)
    (hd : t.direction ≠ .nothing) (hdir : s.ctl.cfg.variant = .gvpS2 → s.ctl.gcntr.getLsbD 4 = t.direction.isOut) :
    (∃ u, s.pump.1.Current id u) ∧ s.pump.1.ctl.phase = s.ctl.phase ∧
      s.pump.1.ctl.dataAvail = s.ctl.dataAvail ∧ XferActs (some id) s s.pump.1 ∧
      BytesStand s.ctl (if t.direction = .toHost then pumpBytes s.ctl t else 0) s s.pump.1 := by
  by_cases hboard : s.ctl.cfg.variant = .none
  case pos =>
    rw [(pumpRefusesWithoutEffect s).2.1 hboard]
    exact ⟨⟨t, h⟩, rfl, rfl, .chip rfl (fun _ _ => rfl) fun _ _ => rfl, .of_sameMemory (.refl s) rfl⟩
  case neg =>
    obtain ⟨bs, g, -, -, hpump⟩ := State.Ready.pump ⟨h, hd, hboard, hok⟩ hdir
    have hbytes : BytesStand s.ctl (if t.direction = .toHost then pumpBytes s.ctl t else 0) s s.pump.1 := by
      obtain ⟨_, -, -, -, hin, hout⟩ := pumpMovesTheDataInOrder s t hok h.target hd hboard hdir
      split
      case isTrue hhost => exact ⟨(hin hhost).2.1, (hin hhost).2.2⟩
      case isFalse hhost =>
        obtain ⟨hmem, hsram, -⟩ := hout hhost
        exact .of_sameMemory ⟨hmem, hsram⟩ (by rw [hpump]; exact State.pumped_memMap ..)
    rw [hpump] at hbytes ⊢
    exact ⟨⟨g.target, (State.pumped_curTarget ..).trans h.curTarget, by simp⟩, State.pumped_phase ..,
      State.pumped_dataAvail .., .pumped s id _ _ g, hbytes⟩

section
variable {s : State} {n : Nat}

theorem State.selXfer_missing_leaves (h : s.ctl.lookup = none) (atn : Bool) : s.XferLeaves (s.selXfer atn) n := by
  rw [State.selXfer_missing h]
  exact ⟨.chip rfl (XferActs.getElem_set_of_notMem _ _ (r := 0x10) (by decide)) fun _ _ => rfl, rfl,
    .of_sameMemory ⟨rfl, rfl⟩ rfl⟩

variable {id : Fin 8} {t : Target}

theorem State.selXfer_late_leaves (h : s.ctl.lookup = some id) (ht : s.ctl.targets[id.val] = some t)
    (hs : s.ctl.selected = true) (hp : 0x42 ≤ s.ctl.phase.toNat) (hdata : s.ctl.phase ≠ 0x45) (atn : Bool) :
    s.XferLeaves (s.selXfer atn) n := by
  rw [State.selXfer_late h ht hs hp hdata]
  refine ⟨.chip rfl (fun k hk => ?_) fun _ _ => rfl, rfl, .of_sameMemory ⟨rfl, rfl⟩ rfl⟩
  refine (XferActs.getElem_set_of_notMem _ _ (r := 0x10) (by decide) k hk).trans ?_
  dsimp only
  split
  · exact XferActs.getElem_set_of_notMem _ _ (r := 0x0F) (by decide) k hk
  · rfl

/-- From the data phase on without a pump. -/
theorem State.XferEnds.leaves {u : State} (h : XferEnds id (s.atData id t) u) : s.XferLeaves u n where
  acts := h.curTarget ▸ (XferActs.atData s id t).trans h.acts
  closed := h.dataAvail
  bytes :=
    have hmap : u.memMap = s.memMap := by rw [h.acts.rest]; rfl
    .of_sameMemory (State.SameMemory.trans (t := s.atData id t) ⟨rfl, rfl⟩ h.memory) hmap

/-- From the data phase on with one. -/
theorem State.Current.xferPumped_leaves (h : (s.atData id t).Current id (s.readyForData t).1)
    (hok : (s.atData id t).ctl.ok) (hd : (s.readyForData t).1.direction ≠ .nothing)
    (hdir : s.ctl.cfg.variant = .gvpS2 → s.ctl.gcntr.getLsbD 4 = (s.readyForData t).1.direction.isOut)
    (hn : (s.readyForData t).1.direction = .toHost → n = pumpBytes s.ctl (s.readyForData t).1) :
    s.XferLeaves (State.xferFinish ((s.atData id t).xferPumped (s.readyForData t).1.direction)) n := by
  obtain ⟨⟨u, hcur⟩, hphase, havail, hacts, hbytes⟩ := h.pump_leaves hok hd hdir
  have hends := State.XferEnds.xferPumped rfl hcur (hphase.trans (s.atData_phase id t)) hd
  have hcount : BytesStand s.ctl n s (s.atData id t).pump.1 := by
    rw [State.atData_pumpBytes] at hbytes
    split at hbytes
    case isTrue hhost => exact hn hhost ▸ ⟨hbytes.host, hbytes.buffer⟩
    case isFalse =>
      exact ⟨fun a _ => hbytes.host a fun k hk => absurd hk k.not_lt_zero,
        fun j _ => hbytes.buffer j fun ⟨_, k, hk, _⟩ => absurd hk k.not_lt_zero⟩
  have hmap : (State.xferFinish ((s.atData id t).xferPumped (s.readyForData t).1.direction)).memMap =
      (s.atData id t).pump.1.memMap := by rw [hends.acts.rest]
  exact {
    acts := (hends.curTarget.trans hcur.curTarget) ▸ ((XferActs.atData s id t).trans hacts).trans hends.acts
    closed := hends.dataAvail.trans havail
    bytes := hcount.trans (.of_sameMemory hends.memory hmap) }

/-- A Select-and-Transfer that reaches the data phase pumps, or it stops or ends without a pump (R209). -/
theorem State.selXfer_reaching_leaves (hok : s.ctl.ok) (h : s.ctl.lookup = some id)
    (ht : s.ctl.targets[id.val] = some t)
    (hreach : s.ctl.selected = false ∨ s.ctl.phase.toNat ≤ 0x41 ∨ s.ctl.phase = 0x45)
    (hn : (s.readyForData t).1.direction = .toHost → 0 < (s.readyForData t).1.dataLength → s.ctl.tc ≠ 0 →
      s.ctl.canDma = true → s.ctl.otherDirection false = false → n = pumpBytes s.ctl (s.readyForData t).1)
    (atn : Bool) : s.XferLeaves (s.selXfer atn) n := by
  have hcur := s.atData_current id t
  have htc : (s.atData id t).ctl.tc = s.ctl.tc := s.atData_tc id t
  have hcan : (s.atData id t).ctl.canDma = s.ctl.canDma := s.atData_canDma id t
  rw [State.selXfer_reaching h ht hreach]
  by_cases hdata : (s.readyForData t).1.hasData = true
  case neg =>
    rw [State.xferMoves_none (Bool.not_eq_true _ ▸ hdata)]
    exact (State.XferEnds.ended _).leaves
  case pos =>
    have hd := Target.direction_ne_nothing hdata
    rw [State.xferMoves_some hdata]
    by_cases hzero : s.ctl.tc = 0
    · rw [State.xferData_of_zero (htc.trans hzero)]
      exact (State.XferEnds.stopped _ _).leaves
    cases hdma : s.ctl.canDma with
    | false =>
      rw [State.xferData_of_noDma (htc ▸ hzero) (hcan.trans hdma)]
      exact (State.XferEnds.stopped _ _).leaves
    | true =>
      have hmatch := (s.atData id t).ctl.dirMismatch_eq hd
      cases hother : s.ctl.otherDirection (decide ((s.readyForData t).1.direction ≠ .toHost)) with
      | true =>
        rw [State.xferData_of_otherDirection (htc ▸ hzero) (hcan.trans hdma) (hmatch.trans hother)]
        exact (State.XferEnds.stopped _ _).leaves
      | false =>
        rw [State.xferData_pumps (htc ▸ hzero) (hcan.trans hdma) (hmatch.trans hother)]
        refine hcur.xferPumped_leaves ((Acts.atData ht hreach).ok hok) hd
          (Controller.gDirw_of_agrees hd hother) fun hhost => ?_
        have hlen := ((Target.hasData_iff _).mp hdata).resolve_left (by simp [hhost, Direction.isOut, Direction.toInt])
        exact hn hhost hlen.2 hzero hdma (by simpa [hhost] using hother)

end

/-- Settles O31: the lookup fails, or the command goes on in the data phase or past it; each of the three leaves
the rest alone. -/
theorem selXferLeavesTheRestAlone : Obligations.SelXferLeavesTheRestAlone := by
  intro sbt s u i hok hi hexec id n
  have hleaves : s.XferLeaves u n := by
    obtain ⟨atn, hatn⟩ := exec_selXfer hi s
    obtain rfl : s.selXfer atn = u := Host.Outcome.next.inj (hatn.symm.trans hexec)
    by_cases hmissing : id = 7 ∨ s.ctl.targets[id.val] = none
    case pos => exact State.selXfer_missing_leaves (Controller.lookup_of_missing hmissing) atn
    case neg =>
      obtain ⟨h7, hattached⟩ := not_or.mp hmissing
      obtain ⟨t, ht⟩ := Option.ne_none_iff_exists'.mp hattached
      have hfound : s.ctl.lookup = some id := Controller.lookup_of_attached rfl h7 ht
      by_cases hreach : s.ctl.selected = false ∨ s.ctl.phase.toNat ≤ 0x41 ∨ s.ctl.phase = 0x45
      case pos =>
        refine State.selXfer_reaching_leaves hok hfound ht hreach (fun hhost hlen htc hdma hdir => ?_) atn
        simp only [n, ht]
        exact if_pos ⟨h7, hreach, hhost, hlen, htc, hdma, hdir⟩
      case neg =>
        obtain ⟨hs, hp, hdata⟩ := (not_or.trans (and_congr_right fun _ => not_or)).mp hreach
        exact State.selXfer_late_leaves hfound ht (Bool.not_eq_false _ ▸ hs) (by omega) hdata atn
  obtain ⟨hacts, hclosed, hhost, hbuffer⟩ := hleaves
  refine ⟨hacts.regs, hhost, hbuffer, hacts.targets, ?line, hclosed, ?frame⟩
  case line =>
    refine hacts.line.imp (fun ⟨ho, hl, _⟩ => ⟨ho, hl⟩) fun ⟨ho, hl⟩ => ⟨ho, ?_⟩
    exact (congrArg State.irqLine hl).symm
  case frame =>
    have histr := hacts.istr
    rw [hacts.rest] at histr ⊢
    exact ⟨rfl, rfl, rfl, rfl, rfl, rfl, rfl, rfl, rfl, rfl, rfl, rfl, histr, rfl, rfl, rfl, rfl, rfl⟩

end Sys2Proof.Machine
end
